-- ==== Sys2Proof/Word.lean ====
section
/-! DEFINITION. The bit widths of the block's registers and the word types built from them. -/

namespace Sys2Proof

/-- Width of NOW and SNAP in bits (00_scope.md R7, parameter TW at its default; log entry 5). -/
abbrev TW : Nat := 32

/-- Width of the port counter CNT in bits (00_scope.md R7, parameter CW at its default; log entry 5). -/
abbrev CW : Nat := 16

/-- Width of BITCNT in bits (00_scope.md R7, parameter BW at its default; log entry 5). -/
abbrev BW : Nat := 8

/-- Width of the frame accumulator; "fixed, not a parameter" (00_scope.md R6). -/
abbrev frameWidth : Nat := 40

/-- An 8-bit unsigned value: a byte field of the frame or of StoredReading (R24, R26). -/
abbrev Byte := BitVec 8

/-- A command word `w[7:0]` in the format CMD8 (R70). -/
abbrev CommandWord := BitVec 8

/-- The value of NOW or SNAP (R25, R32). -/
abbrev TimeValue := BitVec TW

/-- The value of CNT (R31). -/
abbrev Count := BitVec CW

/-- The value of BITCNT (R23). -/
abbrev BitCount := BitVec BW

/-- The value of FRAME (R24). -/
abbrev Frame := BitVec frameWidth

end Sys2Proof
end

