-- ==== Sys2Proof/Config.lean ====
section
/-! DEFINITION. The parameters of 00_scope.md R6 and R8. They are fixed for a run and are not reset (R200); State
holds them as data, so a statement about every state is a statement about every value of them (log entry 4).
The spec's draws are arguments and schedule entries, so no opaque constant is needed here. -/

namespace Sys2Proof

/-- COMMIT_POLICY: when EVAL_DATA writes StoredReading (R8, R146). -/
inductive CommitPolicy
  /-- STRICT, the default: commit when the checksum matches. -/
  | strict
  /-- ALWAYS: the reference behaviour, commit whatever the checksum. -/
  | always
  /-- STRICT_FULL: commit when the checksum matches and the frame is not short. -/
  | strictFull
deriving DecidableEq, Repr

/-- The named parameters of R6 and R8, each with the spec's default. -/
structure Params where
  /-- T_START, in NOW units: least length of the host's low pulse. -/
  tStart : Nat := 18
  /-- T_RX, in NOW units: the RX_DATA timeout. -/
  tRx : Nat := 20
  /-- N_BITS: bit count at which RX_DATA ends. -/
  nBits : Nat := 40
  /-- BIT_THRESHOLD, in CNT ticks: an interval strictly greater decodes to 1. -/
  bitThreshold : Nat := 85
  /-- COMMIT_POLICY (R8). -/
  commitPolicy : CommitPolicy := .strict
  /-- SPURIOUS_EDGES: whether a falling edge runs EDGE in every PIN_MODE (R8, R174). -/
  spuriousEdges : Bool := false
deriving DecidableEq, Repr

/-- The parameters at the spec's defaults (R6, R8). -/
abbrev Params.default : Params := {}

end Sys2Proof
end

