-- ==== Sys2Proof/Syntax.lean ====
section
/-! DEFINITION. The seven operations of 30_encoding.md R72. No operation has an operand (R71). -/

namespace Sys2Proof

/-- One constructor per row of spec/opcode_table.json. `initialise` is INITIALIZE, the operation, which is distinct
from INIT, the state (R73). -/
inductive Instr
  /-- INITIALIZE, 0x01, issued by HOST (R100). -/
  | initialise
  /-- REQUEST, 0x02, issued by HOST (R101). -/
  | request
  /-- POLL, 0x03, issued by HOST (R102). -/
  | poll
  /-- EDGE, 0x04, issued by IRQ (R130). -/
  | edge
  /-- GET_TEMP, 0x05, issued by HOST (R160). -/
  | getTemp
  /-- GET_HUM, 0x06, issued by HOST (R161). -/
  | getHum
  /-- GET_STATUS, 0x07, issued by HOST (R162). -/
  | getStatus
deriving DecidableEq, Repr

end Sys2Proof
end

