-- ==== Sys2Proof/WellFormed.lean ====
section
/-! DEFINITION. What must hold of an operation, of a command word and of the parameters for the spec to give them a
meaning. -/

namespace Sys2Proof

/-- Every operation is well formed: none has an operand field, an immediate or a register specifier (R71). -/
def Instr.wf : Instr → Bool
  | .initialise => true
  | .request => true
  | .poll => true
  | .edge => true
  | .getTemp => true
  | .getHum => true
  | .getStatus => true

/-- A command word that is not reserved (R70, R72, R75), as arithmetic on its value: `w[7:4]` is zero, `w[3:0]` is
not 0, and `w[3:0]` is not in 8 to 15. The decoder does not use this; the two are compared in Laws/Decode.lean. -/
def CommandWord.wf (w : CommandWord) : Bool :=
  decide (w.toNat / 16 = 0) && decide (w.toNat % 16 ≠ 0) && decide (w.toNat % 16 < 8)

/-- Each parameter is representable in the register it is compared with. R7 asks this of the defaults ("so that
N_BITS = 40 is representable", "so that BIT_THRESHOLD = 85 is representable"); log entry 15 reads it of every value. -/
def Params.wf (p : Params) : Bool :=
  decide (p.nBits < 2 ^ BW) && decide (p.bitThreshold < 2 ^ CW) && decide (p.tStart < 2 ^ TW) &&
    decide (p.tRx < 2 ^ TW)

end Sys2Proof
end

