-- ==== Sys2Proof/Decode.lean ====
section
/-! DEFINITION. The decoder, the encoder and the mnemonics of 30_encoding.md R70 to R75. -/

namespace Sys2Proof

/-- Why a command word has no operation. -/
inductive DecodeError
  /-- A word not in the opcode map; every such word is reserved (R75). -/
  | reservedWord (w : CommandWord)
deriving DecidableEq, Repr

/-- One row of the opcode map (R72): the words `w` with `w &&& mask = pattern` stand for `instr`. -/
structure OpcodeRow where
  pattern : CommandWord
  mask : CommandWord
  instr : Instr
deriving DecidableEq, Repr

/-- The opcode map of R72, first column: "match the whole word `w[7:0]` against the first column; the mask is 0xFF". -/
def opcodeTable : List OpcodeRow :=
  [⟨0x01, 0xFF, .initialise⟩, ⟨0x02, 0xFF, .request⟩, ⟨0x03, 0xFF, .poll⟩, ⟨0x04, 0xFF, .edge⟩,
   ⟨0x05, 0xFF, .getTemp⟩, ⟨0x06, 0xFF, .getHum⟩, ⟨0x07, 0xFF, .getStatus⟩]

/-- The word belongs to the row. -/
def OpcodeRow.hits (w : CommandWord) (r : OpcodeRow) : Bool :=
  w &&& r.mask == r.pattern

/-- The operation a command word stands for; a reserved word is rejected by name (R72, R75). -/
def decode (w : CommandWord) : Except DecodeError Instr :=
  match opcodeTable.find? (OpcodeRow.hits w) with
  | some r => .ok r.instr
  | none => .error (.reservedWord w)

/-- The field `op = w[3:0]` of an operation (R70, and the second column of R72). -/
def opField : Instr → BitVec 4
  | .initialise => 0b0001
  | .request => 0b0010
  | .poll => 0b0011
  | .edge => 0b0100
  | .getTemp => 0b0101
  | .getHum => 0b0110
  | .getStatus => 0b0111

/-- The command word of an operation: `z = w[7:4] = 0b0000` above `op` (R70, R72). -/
def encode (i : Instr) : CommandWord :=
  (0b0000 : BitVec 4) ++ opField i

/-- The command word that the opcode table's numbering gives: one byte, bit 0 its least significant bit, and every bit
from `nbits` up zero (log entry 9). -/
def tableByte (nbits w : Nat) : CommandWord :=
  BitVec.ofNat 8 (w % 2 ^ nbits)

/-- The operation the decoder reads from a word numbered as spec/opcode_table.json numbers it. -/
def decodeTableWord (nbits w : Nat) : Option Instr :=
  match decode (tableByte nbits w) with
  | .ok i => some i
  | .error _ => none

/-- The mnemonic of R72, as the characters a program line holds (R76: upper case). -/
def mnemonic : Instr → List Char
  | .initialise => ['I', 'N', 'I', 'T', 'I', 'A', 'L', 'I', 'Z', 'E']
  | .request => ['R', 'E', 'Q', 'U', 'E', 'S', 'T']
  | .poll => ['P', 'O', 'L', 'L']
  | .edge => ['E', 'D', 'G', 'E']
  | .getTemp => ['G', 'E', 'T', '_', 'T', 'E', 'M', 'P']
  | .getHum => ['G', 'E', 'T', '_', 'H', 'U', 'M']
  | .getStatus => ['G', 'E', 'T', '_', 'S', 'T', 'A', 'T', 'U', 'S']

end Sys2Proof
end

