-- ==== Sys2Proof/Machine/State.lean ====
section
/-! DEFINITION. The state of the machine: the block's registers (10_state.md section 1), the port-side state
(section 2), the parameters of the run, and the model's own inputs and outputs. Reset is 70_reset_and_hazards.md R200. -/

namespace Sys2Proof.Machine

/-- The eight values of the 3-bit register STATE (R21); the codes are `ProtocolState.code` in Operands.lean. -/
inductive ProtocolState
  /-- INIT, 0. -/
  | init
  /-- IDLE, 1. -/
  | idle
  /-- STARTCOMM_INIT, 2. -/
  | startcommInit
  /-- STARTCOMM_DELAY, 3. -/
  | startcommDelay
  /-- STARTCOMM_END, 4. -/
  | startcommEnd
  /-- RX_DATA, 5. -/
  | rxData
  /-- EVAL_DATA, 6. -/
  | evalData
  /-- 7, unrecognized: no operation writes it, and POLL recovers from it (R21, R110). -/
  | unrecognized
deriving DecidableEq, Repr

/-- The three values of PIN_MODE (R29; log entry 12). -/
inductive PinMode
  /-- UNCONFIGURED, 0. -/
  | unconfigured
  /-- OUTPUT, 1. -/
  | output
  /-- INPUT_IRQ, 2. -/
  | inputIrq
deriving DecidableEq, Repr

/-- The three values of the output latch PIN_LEVEL (R30; log entry 12). -/
inductive PinLevel
  /-- UNKNOWN, 0. -/
  | unknown
  /-- LOW, 1. -/
  | low
  /-- HIGH, 2. -/
  | high
deriving DecidableEq, Repr

/-- A value an accessor puts on its response (R74). -/
inductive Response
  /-- GET_TEMP's 16 bits. -/
  | temp (v : BitVec 16)
  /-- GET_HUM's 8 bits. -/
  | hum (v : BitVec 8)
  /-- GET_STATUS's 8 bits. -/
  | status (v : BitVec 8)
deriving DecidableEq, Repr

/-- One step of an agent (R9, R10): what the outside world can do to the block (log entry 1). -/
inductive Event
  /-- A command word is presented, by HOST or IRQ; nothing checks which (R70, R191; log entry 8). -/
  | command (w : CommandWord)
  /-- ENV step TIME(k): the elapsed-time source advances (R170). -/
  | time (k : Nat)
  /-- Directive `.now t`: the advance of the elapsed-time source that ends at `t` (R77; log entry 10). -/
  | now (t : TimeValue)
  /-- ENV step TICK(k): the free-running counter advances (R171). -/
  | tick (k : Nat)
  /-- ENV step FALL: a falling edge on the sensor line (R172, R173). -/
  | fall
  /-- Power is lost and comes back, with `now` and `cnt` the draws of power-on reset (R197, R200; log entry 7). -/
  | powerCycle (now : TimeValue) (cnt : Count)
deriving DecidableEq, Repr

/-- The machine's state. Plain data: no field is a function. -/
structure State where
  /-- The parameters of the run (R6, R8); no step changes them (R200). -/
  params : Params
  /-- STATE, the sequencer (R21, R22). -/
  state : ProtocolState
  /-- BITCNT, the bit counter (R23). -/
  bitcnt : BitCount
  /-- FRAME, the 40-bit accumulator (R24). -/
  frame : Frame
  /-- SNAP, the start-time snapshot (R25). -/
  snap : TimeValue
  /-- STORED_T_INT (R26). -/
  storedTInt : Byte
  /-- STORED_T_DEC (R26). -/
  storedTDec : Byte
  /-- STORED_H_INT (R26). -/
  storedHInt : Byte
  /-- OUTCOME, bits 3 to 0 COMMITTED, TIMEOUT, CKSUM_OK, DONE (R27, R147). -/
  outcome : BitVec 4
  /-- PIN_MODE (R29). -/
  pinMode : PinMode
  /-- PIN_LEVEL, the output latch (R30). -/
  pinLevel : PinLevel
  /-- CNT, the port's free-running counter (R31). -/
  cnt : Count
  /-- NOW, the port's elapsed-time value (R32). -/
  now : TimeValue
  /-- The steps the agents still take, the next one first (R10, R58; log entry 1). -/
  schedule : List Event
  /-- The responses given so far, the newest first (R74; log entry 3). -/
  responses : List Response
deriving DecidableEq, Repr

/-- The reasons to stop with a fault: none. "The block has no fault outcome" (R11); the three faults of R181 are
handled by POLL and are no outcome of a step (log entry 11). Safe: there is nothing to raise. -/
inductive Fault
deriving DecidableEq, Repr

/-- The reasons the model gives a step no meaning. -/
inductive Refusal
  /-- Raised by `exec` for an operation that has no meaning yet; no arm raises it. Safe: the run stops. -/
  | notModelled (mnemonic : String)
  /-- Raised by a step that presents a reserved command word (R75, R185). Safe: "Refusing these words errs toward
  unprovable". -/
  | reservedWord (w : CommandWord)
deriving DecidableEq, Repr

/-- Power-on reset (R200) with the parameters of the run and the two draws: the values of NOW and CNT, which the spec
leaves unspecified (R31, R32). -/
def State.powerOn (p : Params) (now : TimeValue) (cnt : Count) : State where
  params := p
  state := .init
  bitcnt := 0
  frame := 0
  snap := 0
  storedTInt := 0
  storedTDec := 0
  storedHInt := 0
  outcome := 0
  pinMode := .unconfigured
  pinLevel := .unknown
  cnt := cnt
  now := now
  schedule := []
  responses := []

/-- The machine right after reset, at the default parameters. Both draws are 0 here (DESIGN CHOICE, log entry 6,
unsafe); a statement about every draw is about `State.powerOn`. -/
def State.reset : State := State.powerOn .default 0 0

end Sys2Proof.Machine
end

