-- ==== Sys2Proof/Machine/Operands.lean ====
section
/-! DEFINITION. What an operation reads: the codes of the enumerated registers, the byte fields of the frame, elapsed
time, the decoded bit, and the layouts of the responses. -/

namespace Sys2Proof.Machine

/-- The 3-bit code of STATE (R21). -/
def ProtocolState.code : ProtocolState → BitVec 3
  | .init => 0
  | .idle => 1
  | .startcommInit => 2
  | .startcommDelay => 3
  | .startcommEnd => 4
  | .rxData => 5
  | .evalData => 6
  | .unrecognized => 7

/-- The value of STATE that a 3-bit code stands for (R21). -/
def ProtocolState.ofCode (c : BitVec 3) : ProtocolState :=
  match c.toNat with
  | 0 => .init
  | 1 => .idle
  | 2 => .startcommInit
  | 3 => .startcommDelay
  | 4 => .startcommEnd
  | 5 => .rxData
  | 6 => .evalData
  | _ => .unrecognized

/-- The 2-bit code of PIN_MODE (R29). -/
def PinMode.code : PinMode → BitVec 2
  | .unconfigured => 0
  | .output => 1
  | .inputIrq => 2

/-- The code of PIN_LEVEL (R30). -/
def PinLevel.code : PinLevel → BitVec 2
  | .unknown => 0
  | .low => 1
  | .high => 2

/-- Byte field `k` of FRAME is FRAME[8k+7:8k] (R53). -/
def byteField (k : Nat) (f : Frame) : Byte := f.extractLsb' (8 * k) 8

/-- Humidity, integer part: FRAME[39:32] (R24, R140). -/
def hInt (f : Frame) : Byte := byteField 4 f

/-- Humidity, decimal part: FRAME[31:24] (R24, R140). -/
def hDec (f : Frame) : Byte := byteField 3 f

/-- Temperature, integer part: FRAME[23:16] (R24, R140). -/
def tInt (f : Frame) : Byte := byteField 2 f

/-- Temperature, decimal part: FRAME[15:8] (R24, R140). -/
def tDec (f : Frame) : Byte := byteField 1 f

/-- The checksum the sensor sent: FRAME[7:0] (R24, R140). -/
def cks (f : Frame) : Byte := byteField 0 f

/-- The frame of five byte fields, h_int first (R24, R53). -/
def frameOf (hi hd ti td ck : Byte) : Frame := hi ++ hd ++ ti ++ td ++ ck

/-- Elapsed time since the snapshot, `NOW -_TW SNAP` (R15, R25). -/
def elapsed (now snap : TimeValue) : Nat := (now - snap).toNat

/-- The bit an inter-edge interval decodes to: 1 when it exceeds the threshold, strictly (R130, step 3). -/
def decodedBit (threshold : Nat) (interval : Count) : Bool := decide (threshold < interval.toNat)

/-- The frame shifted left by one with the new bit at FRAME[0]; the old FRAME[39] is discarded (R130, steps 1 and 3). -/
def shiftIn (f : Frame) (b : Bool) : Frame := f.extractLsb' 0 39 ++ BitVec.ofBool b

/-- The level the block drives on the line: `none` while it does not drive it (R30, R175). -/
def lineDrive (m : PinMode) (l : PinLevel) : Option PinLevel :=
  match m with
  | .output => some l
  | .inputIrq => none
  | .unconfigured => none

/-- GET_TEMP's response, integer byte in bits [15:8] (R74, R160). -/
def tempWord (ti td : Byte) : BitVec 16 := ti ++ td

/-- GET_STATUS's response: 0 in bit 7, STATE in bits [6:4], OUTCOME in bits [3:0] (R162). -/
def statusWord (st : ProtocolState) (o : BitVec 4) : BitVec 8 := (0 : BitVec 1) ++ st.code ++ o

end Sys2Proof.Machine
end

