-- ==== Sys2Proof/Machine/Flags.lean ====
section
/-! DEFINITION. The flag computations of 42_validation.md: the checksum, the short-frame test, the commit decision and
the OUTCOME register (R27, R141 to R147). The block has no other flags (R28). -/

namespace Sys2Proof.Machine

/-- The byte sum of the four data fields, truncated to 8 bits (R141). -/
def computedChecksum (f : Frame) : Byte := hInt f + hDec f + tInt f + tDec f

/-- The computed checksum equals the decoded one (R142). -/
def checksumOk (f : Frame) : Bool := computedChecksum f == cks f

/-- Fewer than N_BITS bits were counted (R145). -/
def shortFrame (nBits : Nat) (b : BitCount) : Bool := decide (b.toNat < nBits)

/-- Whether EVAL_DATA writes StoredReading, given the policy, the checksum result and the short-frame result (R146). -/
def commitDecision (p : CommitPolicy) (ok timeout : Bool) : Bool :=
  match p with
  | .strict => ok
  | .always => true
  | .strictFull => ok && !timeout

/-- The value EVAL_DATA writes to OUTCOME: `{commit, timeout, cksum_ok, 0b1}` (R147). -/
def outcomeWord (commit timeout ok : Bool) : BitVec 4 :=
  BitVec.ofBool commit ++ BitVec.ofBool timeout ++ BitVec.ofBool ok ++ (1 : BitVec 1)

/-- OUTCOME bit 0: at least one EVAL_DATA has run since power-on (R27). -/
def outcomeDone (o : BitVec 4) : Bool := o.getLsbD 0

/-- OUTCOME bit 1: the checksum matched in the most recent EVAL_DATA (R27). -/
def outcomeCksumOk (o : BitVec 4) : Bool := o.getLsbD 1

/-- OUTCOME bit 2: BITCNT was below N_BITS at the most recent EVAL_DATA (R27). -/
def outcomeTimeout (o : BitVec 4) : Bool := o.getLsbD 2

/-- OUTCOME bit 3: the most recent EVAL_DATA wrote StoredReading (R27). -/
def outcomeCommitted (o : BitVec 4) : Bool := o.getLsbD 3

end Sys2Proof.Machine
end

