-- ==== Sys2Proof/Machine/Ops.lean ====
section
/-! DEFINITION. The named operations over the registers: the writes of R14, the five port primitives (R14, R176), the
advances of the two time sources (R170, R171), power-on reset of a running machine (R197, R200) and the dispatch
condition of the edge interrupt (R173, R174, R186). The block has no memory (R50) and takes no exception (R180), so
there is no memory access and no exception entry here; the interrupt's entry is EDGE itself and saves nothing (R188). -/

namespace Sys2Proof.Machine

/-- `STATE <- v` (R14: this block's form of a jump). -/
def State.writeState (s : State) (v : ProtocolState) : State := { s with state := v }

/-- `BITCNT <- v` (R23). -/
def State.writeBitcnt (s : State) (v : BitCount) : State := { s with bitcnt := v }

/-- `FRAME <- v` (R24). -/
def State.writeFrame (s : State) (v : Frame) : State := { s with frame := v }

/-- `SNAP <- v` (R25). -/
def State.writeSnap (s : State) (v : TimeValue) : State := { s with snap := v }

/-- The commit: all three StoredReading registers in one write (R26, R146). -/
def State.writeStored (s : State) (ti td hi : Byte) : State :=
  { s with storedTInt := ti, storedTDec := td, storedHInt := hi }

/-- `OUTCOME <- v` (R27). -/
def State.writeOutcome (s : State) (v : BitVec 4) : State := { s with outcome := v }

/-- `PortSetMode(m)` writes PIN_MODE (R14). -/
def State.portSetMode (s : State) (m : PinMode) : State := { s with pinMode := m }

/-- `PortSetLevel(l)` writes PIN_LEVEL (R14). -/
def State.portSetLevel (s : State) (l : PinLevel) : State := { s with pinLevel := l }

/-- `PortResetCounter(v)` writes CNT (R14). -/
def State.portResetCounter (s : State) (v : Count) : State := { s with cnt := v }

/-- `PortNow()` reads NOW (R14). -/
def State.portNow (s : State) : TimeValue := s.now

/-- `PortCounter()` reads CNT (R14). -/
def State.portCounter (s : State) : Count := s.cnt

/-- `NOW <- v`; only the environment writes NOW (R32). -/
def State.writeNow (s : State) (v : TimeValue) : State := { s with now := v }

/-- `return v` puts a value on the operation's response (R14, R74; log entry 3). -/
def State.respond (s : State) (r : Response) : State := { s with responses := r :: s.responses }

/-- The agents' remaining steps (log entry 1). -/
def State.withSchedule (s : State) (es : List Event) : State := { s with schedule := es }

/-- `NOW <- NOW +_TW k` (R170). -/
def State.advanceNow (s : State) (k : Nat) : State := s.writeNow (s.now + BitVec.ofNat TW k)

/-- `CNT <- CNT +_CW k` (R171). -/
def State.advanceCounter (s : State) (k : Nat) : State :=
  s.portResetCounter (s.cnt + BitVec.ofNat CW k)

/-- Elapsed time `el = NOW -_TW SNAP` in a state (R25). -/
def State.el (s : State) : Nat := elapsed s.portNow s.snap

/-- A falling edge runs EDGE exactly when this holds (R173, R174). -/
def State.edgeDispatched (s : State) : Bool := s.pinMode == .inputIrq || s.params.spuriousEdges

/-- The line's drive in a state (R175). -/
def State.drive (s : State) : Option PinLevel := lineDrive s.pinMode s.pinLevel

/-- Power-on reset of a running machine: every register at its reset value with the draws `now` and `cnt`; the
parameters, the agents' remaining steps and the responses already given stay (R197, R200; log entry 7). -/
def State.powerCycled (s : State) (now : TimeValue) (cnt : Count) : State :=
  { State.powerOn s.params now cnt with schedule := s.schedule, responses := s.responses }

end Sys2Proof.Machine
end

