-- ==== Sys2Proof/Machine/Accessors.lean ====
section
/-! DEFINITION. The accessors (43_accessors.md R160 to R162). They write nothing but their response. -/

namespace Sys2Proof.Machine

/-- GET_TEMP (R160). -/
def execGetTemp (s : State) : Host.Outcome State Fault Refusal :=
  .next (s.respond (.temp (tempWord s.storedTInt s.storedTDec)))

/-- GET_HUM (R161). -/
def execGetHum (s : State) : Host.Outcome State Fault Refusal :=
  .next (s.respond (.hum s.storedHInt))

/-- GET_STATUS (R162). -/
def execGetStatus (s : State) : Host.Outcome State Fault Refusal :=
  .next (s.respond (.status (statusWord s.state s.outcome)))

end Sys2Proof.Machine
end

