-- ==== Sys2Proof/Machine/EdgeCapture.lean ====
section
/-! DEFINITION. EDGE, the edge-capture handler (41_edge_capture.md R130). -/

namespace Sys2Proof.Machine

/-- The body of EDGE: decode CNT into one bit, shift it into FRAME, count it, restart the counter (R130). -/
def captureEdge (s : State) : State :=
  ((s.writeFrame (shiftIn s.frame (decodedBit s.params.bitThreshold s.portCounter))).writeBitcnt
    (s.bitcnt + 1)).portResetCounter 0

/-- EDGE (R130). It tests neither STATE nor PIN_MODE; whether an edge is dispatched is R173's concern. -/
def execEdge (s : State) : Host.Outcome State Fault Refusal := .next (captureEdge s)

end Sys2Proof.Machine
end

