-- ==== Sys2Proof/Machine/Validation.lean ====
section
/-! DEFINITION. Evaluate, the work of POLL in EVAL_DATA (42_validation.md R140 to R148). -/

namespace Sys2Proof.Machine

/-- The frame counts as short in this state (R145). -/
def State.short (s : State) : Bool := shortFrame s.params.nBits s.bitcnt

/-- Whether EVAL_DATA writes StoredReading in this state (R146). -/
def State.commits (s : State) : Bool :=
  commitDecision s.params.commitPolicy (checksumOk s.frame) s.short

/-- The commit of R146: all three StoredReading registers from the frame, or none. -/
def State.commitReading (s : State) (commit : Bool) : State :=
  if commit then s.writeStored (tInt s.frame) (tDec s.frame) (hInt s.frame) else s

/-- Evaluate (R148): it reads FRAME, BITCNT, N_BITS and COMMIT_POLICY once, and writes StoredReading (conditionally) and
OUTCOME. -/
def State.evaluate (s : State) : State :=
  (s.commitReading s.commits).writeOutcome (outcomeWord s.commits s.short (checksumOk s.frame))

end Sys2Proof.Machine
end

