-- ==== Sys2Proof/Machine/Protocol.lean ====
section
/-! DEFINITION. INITIALIZE, REQUEST and POLL (40_state_machine.md R100 to R110). -/

namespace Sys2Proof.Machine

/-- INITIALIZE (R100): the pin becomes an output and the machine goes to INIT, from every state. -/
def execInitialise (s : State) : Host.Outcome State Fault Refusal :=
  .next ((s.portSetMode .output).writeState .init)

/-- REQUEST (R101): from IDLE to STARTCOMM_INIT; in every other state nothing. -/
def execRequest (s : State) : Host.Outcome State Fault Refusal :=
  match s.state with
  | .idle => .next (s.writeState .startcommInit)
  | .init => .next s
  | .startcommInit => .next s
  | .startcommDelay => .next s
  | .startcommEnd => .next s
  | .rxData => .next s
  | .evalData => .next s
  | .unrecognized => .next s

/-- POLL in INIT (R104): the line goes to its idle high level, and the machine to IDLE. -/
def pollInit (s : State) : State :=
  ((s.portSetMode .output).portSetLevel .high).writeState .idle

/-- POLL in IDLE (R103): no action, no exit check. -/
def pollIdle (s : State) : State := s

/-- POLL in STARTCOMM_INIT (R105): the host's low pulse starts. -/
def pollStartcommInit (s : State) : State :=
  (((s.writeBitcnt 0).portSetLevel .low).writeSnap s.portNow).writeState .startcommDelay

/-- POLL in STARTCOMM_DELAY (R106): once the pulse has lasted T_START, release the line and arm edge capture. -/
def pollStartcommDelay (s : State) : State :=
  if s.params.tStart ≤ s.el then
    ((((s.portSetLevel .high).writeFrame 0).portSetMode .inputIrq).portResetCounter 0).writeState .startcommEnd
  else s

/-- POLL in STARTCOMM_END (R107): the RX timeout window starts. -/
def pollStartcommEnd (s : State) : State :=
  (s.writeSnap s.portNow).writeState .rxData

/-- POLL in RX_DATA (R108): reception ends at the timeout or at N_BITS bits. -/
def pollRxData (s : State) : State :=
  if s.params.tRx ≤ s.el ∨ s.params.nBits ≤ s.bitcnt.toNat then s.writeState .evalData else s

/-- POLL in EVAL_DATA (R109): Evaluate, then back to INIT. -/
def pollEvalData (s : State) : State := s.evaluate.writeState .init

/-- POLL with an unrecognized STATE (R110): recover to INIT. -/
def pollUnrecognized (s : State) : State := s.writeState .init

/-- POLL (R102): the dispatch on STATE. -/
def execPoll (s : State) : Host.Outcome State Fault Refusal :=
  match s.state with
  | .init => .next (pollInit s)
  | .idle => .next (pollIdle s)
  | .startcommInit => .next (pollStartcommInit s)
  | .startcommDelay => .next (pollStartcommDelay s)
  | .startcommEnd => .next (pollStartcommEnd s)
  | .rxData => .next (pollRxData s)
  | .evalData => .next (pollEvalData s)
  | .unrecognized => .next (pollUnrecognized s)

end Sys2Proof.Machine
end

