-- ==== Sys2Proof/Machine/Dispatch.lean ====
section
/-! DEFINITION. One arm per operation (30_encoding.md R72). -/

namespace Sys2Proof.Machine

def exec (i : Instr) (s : State) : Host.Outcome State Fault Refusal :=
  match i with
  | .initialise => Sys2Proof.Machine.execInitialise s
  | .request => Sys2Proof.Machine.execRequest s
  | .poll => Sys2Proof.Machine.execPoll s
  | .edge => Sys2Proof.Machine.execEdge s
  | .getTemp => Sys2Proof.Machine.execGetTemp s
  | .getHum => Sys2Proof.Machine.execGetHum s
  | .getStatus => Sys2Proof.Machine.execGetStatus s

end Sys2Proof.Machine
end

