-- ==== Sys2Proof/Machine/Environment.lean ====
section
/-! DEFINITION. What the agents do to the block (44_port_environment.md): presenting a command word, the environment's
steps, and the rule that turns a falling edge into EDGE. -/

namespace Sys2Proof.Machine

/-- The three agents of R9. -/
inductive Agent
  /-- HOST: INITIALIZE, REQUEST, POLL and the accessors. -/
  | host
  /-- IRQ: EDGE. -/
  | irq
  /-- ENV: the sensor and the port's clocks. -/
  | env
deriving DecidableEq, Repr

/-- The agent that issues an operation (R72, column "issued by"; nothing checks it, R191). -/
def issuer : Instr → Agent
  | .initialise => .host
  | .request => .host
  | .poll => .host
  | .edge => .irq
  | .getTemp => .host
  | .getHum => .host
  | .getStatus => .host

/-- A command word is presented: its operation runs, or the step is refused (R70, R75). -/
def presentCommand (w : CommandWord) (s : State) : Host.Outcome State Fault Refusal :=
  match decode w with
  | .ok i => exec i s
  | .error (.reservedWord v) => .refused (.reservedWord v)

/-- A falling edge runs EDGE once when it is dispatched, and otherwise nothing (R172, R173, R174). -/
def fallingEdge (s : State) : Host.Outcome State Fault Refusal :=
  if s.edgeDispatched then exec .edge s else .next s

/-- One step of an agent (R10). `.now t` is TIME(t -_TW NOW) (R77, R170; log entry 10). -/
def runEvent (e : Event) (s : State) : Host.Outcome State Fault Refusal :=
  match e with
  | .command w => presentCommand w s
  | .time k => .next (s.advanceNow k)
  | .now t => .next (s.advanceNow (t - s.now).toNat)
  | .tick k => .next (s.advanceCounter k)
  | .fall => fallingEdge s
  | .powerCycle now cnt => .next (s.powerCycled now cnt)

/-- The agents' next step: taken off the schedule, then run. With nothing left to do the state stays (R58, R201; log
entries 1 and 2). -/
def nextAgentStep (s : State) : Host.Outcome State Fault Refusal :=
  match s.schedule with
  | [] => .next s
  | e :: rest => runEvent e (s.withSchedule rest)

/-- Put a command word in front of the agents' remaining steps. -/
def State.presentNext (s : State) (w : CommandWord) : State :=
  s.withSchedule (.command w :: s.schedule)

end Sys2Proof.Machine
end

