-- ==== Sys2Proof/Machine/Step.lean ====
section
/-! DEFINITION. One atomic step of the machine (00_scope.md R10, R11). -/

namespace Sys2Proof.Machine

/-- One step: the next entry of the agents' schedule. -/
def step (s : State) : Host.Outcome State Fault Refusal := nextAgentStep s

/-- The state in which the next step presents the command word that the opcode table's numbering gives (log entry 9). -/
def State.withFetchWord (s : State) (nbits w : Nat) : State := s.presentNext (tableByte nbits w)

end Sys2Proof.Machine
end

