-- ==== Sys2Proof/Machine/Assembler.lean ====
section
/-! DEFINITION. The assembler of 30_encoding.md R76 to R78: the lines of a program, the agents' steps each stands for,
and reading a line from its characters. -/

namespace Sys2Proof.Machine

/-- One line of a program (R76). -/
inductive Line
  /-- A mnemonic: it presents that command word (R76). -/
  | op (i : Instr)
  /-- `.now t` (R77). -/
  | now (t : TimeValue)
  /-- `.tick k` (R77). -/
  | tick (k : Nat)
  /-- `.fall` (R77). -/
  | fall
  /-- `.expect <name> = <value>`: an annotation that changes nothing (R77). -/
  | expect (name value : List Char)
  /-- BIT0 (R78). -/
  | bit0
  /-- BIT1 (R78). -/
  | bit1
  /-- BYTE v (R78). -/
  | byte (v : Byte)
  /-- FRAME40 v (R78). -/
  | frame40 (v : Frame)
  /-- READ (R78). -/
  | read
  /-- A line that holds only a comment, or nothing. -/
  | comment
deriving DecidableEq, Repr

/-- The bits of a value, the most significant first (R78: "for bits v[39] down to v[0]"). -/
def bitsMsbFirst {n : Nat} (v : BitVec n) : List Bool :=
  (List.range n).map fun j => v.getLsbD (n - 1 - j)

/-- BIT0 is an interval of 84 ticks and a falling edge, BIT1 one of 86 (R78). -/
def bitEvents (b : Bool) : List Event := [.tick (if b then 86 else 84), .fall]

/-- The agents' steps a line stands for (R76, R77, R78). -/
def Line.events : Line → List Event
  | .op i => [.command (encode i)]
  | .now t => [.now t]
  | .tick k => [.tick k]
  | .fall => [.fall]
  | .expect _ _ => []
  | .bit0 => bitEvents false
  | .bit1 => bitEvents true
  | .byte v => (bitsMsbFirst v).flatMap bitEvents
  | .frame40 v => (bitsMsbFirst v).flatMap bitEvents
  | .read => [.command (encode .request), .command (encode .poll)]
  | .comment => []

/-- The agents' steps of a program, in order (R76: "A program is a sequence of lines"). -/
def assemble (p : List Line) : List Event := p.flatMap Line.events

/-- What stands before a comment: a comment runs from `;` to the end of the line (R76). -/
def stripComment (cs : List Char) : List Char := cs.takeWhile (· != ';')

/-- Split at spaces and tabs; `cur` holds the token read so far, reversed. -/
def tokensFrom : List Char → List Char → List (List Char)
  | [], cur => if cur.isEmpty then [] else [cur.reverse]
  | c :: cs, cur =>
    if c == ' ' || c == '\t' then
      (if cur.isEmpty then tokensFrom cs [] else cur.reverse :: tokensFrom cs [])
    else tokensFrom cs (c :: cur)

/-- The value of one digit, in a base up to 16. -/
def digitValue (base : Nat) (c : Char) : Option Nat :=
  let n := c.toNat
  let v :=
    if 48 ≤ n ∧ n ≤ 57 then n - 48
    else if 65 ≤ n ∧ n ≤ 70 then n - 55
    else if 97 ≤ n ∧ n ≤ 102 then n - 87
    else 16
  if v < base then some v else none

/-- The digits read so far are worth `acc`. -/
def digitsFrom (base : Nat) : List Char → Nat → Option Nat
  | [], acc => some acc
  | c :: cs, acc =>
    match digitValue base c with
    | some v => digitsFrom base cs (base * acc + v)
    | none => none

/-- A literal: decimal unless written `0x…` or `0b…` (R12). -/
def parseNumber : List Char → Option Nat
  | [] => none
  | '0' :: 'x' :: d :: ds => digitsFrom 16 (d :: ds) 0
  | '0' :: 'b' :: d :: ds => digitsFrom 2 (d :: ds) 0
  | d :: ds => digitsFrom 10 (d :: ds) 0

/-- A literal that fits in `n` bits (log entry 14). -/
def parseBits (n : Nat) (cs : List Char) : Option (BitVec n) :=
  match parseNumber cs with
  | some v => if v < 2 ^ n then some (BitVec.ofNat n v) else none
  | none => none

/-- Every operation, in the order of R72. -/
def allInstrs : List Instr :=
  [.initialise, .request, .poll, .edge, .getTemp, .getHum, .getStatus]

/-- A line of one token: a mnemonic, `.fall`, or a pseudo-instruction without operand (R76 to R78). -/
def parseWord (t : List Char) : Option Line :=
  match allInstrs.find? (fun i => mnemonic i == t) with
  | some i => some (.op i)
  | none =>
    if t = ['.', 'f', 'a', 'l', 'l'] then some .fall
    else if t = ['B', 'I', 'T', '0'] then some .bit0
    else if t = ['B', 'I', 'T', '1'] then some .bit1
    else if t = ['R', 'E', 'A', 'D'] then some .read
    else none

/-- A line of two tokens: a directive or pseudo-instruction with its value (R77, R78). -/
def parseWithValue (t v : List Char) : Option Line :=
  if t = ['.', 'n', 'o', 'w'] then (parseBits TW v).map .now
  else if t = ['.', 't', 'i', 'c', 'k'] then (parseNumber v).map .tick
  else if t = ['B', 'Y', 'T', 'E'] then (parseBits 8 v).map .byte
  else if t = ['F', 'R', 'A', 'M', 'E', '4', '0'] then (parseBits frameWidth v).map .frame40
  else none

/-- One line from its characters; `none` for a line the syntax does not have (R76 to R78; log entry 14). -/
def parseLine (cs : List Char) : Option Line :=
  match tokensFrom (stripComment cs) [] with
  | [] => some .comment
  | [t] => parseWord t
  | [t, v] => parseWithValue t v
  | [t, name, eq, value] =>
    if t = ['.', 'e', 'x', 'p', 'e', 'c', 't'] ∧ eq = ['='] then some (.expect name value) else none
  | _ => none

end Sys2Proof.Machine
end

