-- ==== Sys2Proof/Safety.lean ====
section
/-! DEFINITION. What statements about runs are written in: runs, invariants, the faults of 60_exceptions.md R181 and
the classes of environment steps. -/

namespace Sys2Proof.Machine

/-- `n` steps, stopping at the first fault or refusal. -/
def runSteps : Nat → State → Host.Outcome State Fault Refusal
  | 0, s => .next s
  | n + 1, s =>
    match step s with
    | .next t => runSteps n t
    | .fault r => .fault r
    | .refused r => .refused r

/-- The three faults of the source (R181). No register holds one, and none is an outcome of a step. -/
inductive FaultCause
  /-- RX_DATA ended by the timeout before N_BITS bits arrived. -/
  | timeout
  /-- The decoded checksum differs from the computed one. -/
  | checksum
  /-- STATE holds 7. -/
  | invalidState
deriving DecidableEq, Repr

/-- The cause codes of R181. -/
def FaultCause.code : FaultCause → Nat
  | .timeout => 1
  | .checksum => 2
  | .invalidState => 3

/-- Whether a POLL in this state detects the fault (R181, column "detected by"; R187: timeout and checksum are checked
independently). -/
def State.pollDetects (s : State) : FaultCause → Bool
  | .timeout => s.state == .evalData && s.short
  | .checksum => s.state == .evalData && !checksumOk s.frame
  | .invalidState => s.state == .unrecognized

/-- A step of the environment other than a power loss: no command word is presented (R170 to R173). -/
def Event.isEnvironment : Event → Bool
  | .command _ => false
  | .time _ => true
  | .now _ => true
  | .tick _ => true
  | .fall => true
  | .powerCycle _ _ => false

/-- The event presents POLL. -/
def Event.isPoll (e : Event) : Bool := e == .command (encode .poll)

/-- The event presents an accessor. -/
def Event.isAccessor (e : Event) : Bool :=
  e == .command (encode .getTemp) || e == .command (encode .getHum) || e == .command (encode .getStatus)

/-- The event presents REQUEST. -/
def Event.isRequest (e : Event) : Bool := e == .command (encode .request)

/-- The event presents EDGE on the command interface rather than through a falling edge (log entry 8). -/
def Event.isEdgeCommand (e : Event) : Bool := e == .command (encode .edge)

/-- The next agent step presents POLL. -/
def State.nextIsPoll (s : State) : Bool := s.schedule.head? == some (.command (encode .poll))

/-- The next agent step runs EDGE: presented as a command word, or a falling edge that is dispatched (R173, R174). -/
def State.nextRunsEdge (s : State) : Bool :=
  s.schedule.head? == some (.command (encode .edge)) || (s.schedule.head? == some .fall && s.edgeDispatched)

/-- The same state in a run whose parameter SPURIOUS_EDGES is true (R8). -/
def State.allowingSpuriousEdges (s : State) : State :=
  { s with params := { tStart := s.params.tStart, tRx := s.params.tRx, nBits := s.params.nBits, bitThreshold := s.params.bitThreshold, commitPolicy := s.params.commitPolicy, spuriousEdges := true } }

/-- The entries that the next `n` steps take off the schedule, less the falling edges that are not dispatched (R172,
R173): what the run does to the block. -/
def State.dispatchedEvents : Nat → State → List Event
  | 0, _ => []
  | n + 1, s =>
    match s.schedule with
    | [] => []
    | e :: rest =>
      match runEvent e (s.withSchedule rest) with
      | .next t => if e = .fall ∧ s.edgeDispatched = false then t.dispatchedEvents n else e :: t.dispatchedEvents n
      | .fault _ => []
      | .refused _ => []

/-- The same state with another list of responses already given (R74). -/
def State.withResponses (s : State) (rs : List Response) : State := { s with responses := rs }

/-- How PIN_MODE and PIN_LEVEL follow STATE: the interrupt window of R173 (INPUT_IRQ from the STARTCOMM_DELAY exit to the
INIT POLL or INITIALIZE), "PIN_MODE = OUTPUT here" of R105, the latch values of R104 to R106, and no STATE = 7 (R21). -/
abbrev State.PinInv (s : State) : Prop :=
  s.state ≠ .unrecognized ∧
  (s.pinMode = .unconfigured → s.state = .init ∧ s.pinLevel = .unknown) ∧
  (s.pinMode = .inputIrq → s.pinLevel = .high ∧
    (s.state = .startcommEnd ∨ s.state = .rxData ∨ s.state = .evalData ∨ s.state = .init)) ∧
  (s.state = .startcommEnd ∨ s.state = .rxData ∨ s.state = .evalData → s.pinMode = .inputIrq) ∧
  (s.state = .idle ∨ s.state = .startcommInit → s.pinMode = .output ∧ s.pinLevel = .high) ∧
  (s.state = .startcommDelay → s.pinMode = .output ∧ s.pinLevel = .low)

/-- OUTCOME and StoredReading: before the first EVAL_DATA all are zero (R26, R27), and from then on OUTCOME is one of the
values of R147's table for the policy: COMMITTED is the policy's decision on CKSUM_OK and TIMEOUT (R146). -/
abbrev State.RecordInv (s : State) : Prop :=
  (outcomeDone s.outcome = false →
    s.outcome = 0 ∧ s.storedTInt = 0 ∧ s.storedTDec = 0 ∧ s.storedHInt = 0) ∧
  (outcomeDone s.outcome = true →
    outcomeCommitted s.outcome =
      commitDecision s.params.commitPolicy (outcomeCksumOk s.outcome) (outcomeTimeout s.outcome))

/-- The invariant of the machine. -/
abbrev State.Inv (s : State) : Prop := s.PinInv ∧ s.RecordInv

/-- Every edge comes through the port in interrupt-input mode: SPURIOUS_EDGES is false and no remaining step presents
EDGE as a command word (R174, R207). -/
abbrev State.PortContract (s : State) : Prop :=
  s.params.spuriousEdges = false ∧ ∀ e ∈ s.schedule, e.isEdgeCommand = false

/-- Under the port contract no bit is counted during the host's low pulse (R207). -/
abbrev State.PulseInv (s : State) : Prop :=
  s.PinInv ∧ s.PortContract ∧ (s.state = .startcommDelay → s.bitcnt = 0)

/-- How many POLLs a cycle that has reached this state still needs at least to be back in IDLE (R111). -/
def ProtocolState.pollsToIdle : ProtocolState → Nat
  | .idle => 0
  | .init => 1
  | .evalData => 2
  | .rxData => 3
  | .startcommEnd => 4
  | .startcommDelay => 5
  | .startcommInit => 6
  | .unrecognized => 2

end Sys2Proof.Machine
end

