-- ==== Sys2Proof/Certificates/Slice0/Obligations.lean ====
section
/-! DEFINITION. The statements about the machine. Each is about every state, and so about every schedule of the agents
and every value of the parameters, unless its hypotheses say otherwise. Equalities of the form `t = { s with … }` are
frames: every field of State not named is unchanged. -/

open Sys2Proof Sys2Proof.Machine

/-! ### Reset, encoding and the step -/

/-- R200: the power-on value of every piece of state, for every parameter setting and every draw of NOW and CNT. The
empty schedule and the empty list of responses, the model's own fields, are log entries 9 and 3. -/
def Obligations.PowerOnGivesResetValues : Prop :=
  ∀ (p : Params) (n : TimeValue) (c : Count), ∃ s, s = State.powerOn p n c ∧
    s.state = .init ∧ s.state.code = 0 ∧ s.bitcnt = 0 ∧ s.frame = 0 ∧ s.snap = 0 ∧
    s.storedTInt = 0 ∧ s.storedTDec = 0 ∧ s.storedHInt = 0 ∧ s.outcome = 0 ∧
    s.pinMode = .unconfigured ∧ s.pinLevel = .unknown ∧ s.cnt = c ∧ s.now = n ∧ s.params = p

/-- R72: the seven rows of the opcode map, word, operation and issuer, and the whole-word match: no other word decodes
to an operation. -/
def Obligations.OpcodeMapDecodes : Prop :=
  (decode 0x01 = .ok .initialise ∧ issuer .initialise = .host) ∧
  (decode 0x02 = .ok .request ∧ issuer .request = .host) ∧
  (decode 0x03 = .ok .poll ∧ issuer .poll = .host) ∧
  (decode 0x04 = .ok .edge ∧ issuer .edge = .irq) ∧
  (decode 0x05 = .ok .getTemp ∧ issuer .getTemp = .host) ∧
  (decode 0x06 = .ok .getHum ∧ issuer .getHum = .host) ∧
  (decode 0x07 = .ok .getStatus ∧ issuer .getStatus = .host) ∧
  ∀ (w : CommandWord) (i : Instr), decode w = .ok i → 1 ≤ w.toNat ∧ w.toNat ≤ 7

/-- R70 and R72: decoding an encoded operation gives it back, and a word that decodes is the encoding of what it
decodes to; the encoder puts 0b0000 in w[7:4]. -/
def Obligations.DecodeEncodeAgree : Prop :=
  (∀ i : Instr, i.wf = true → decode (encode i) = .ok i ∧ (encode i).extractLsb' 4 4 = 0) ∧
  (∀ (w : CommandWord) (i : Instr), decode w = .ok i ↔ encode i = w)

/-- R75: the words 0x00, 0x08 to 0x0F, and every word with w[7:4] ≠ 0 are refused; there is no next state. -/
def Obligations.ReservedWordIsRefused : Prop :=
  ∀ (s : State) (w : CommandWord) (rest : List Event), s.schedule = .command w :: rest →
    (w.toNat = 0 ∨ (8 ≤ w.toNat ∧ w.toNat ≤ 15) ∨ w.toNat / 16 ≠ 0) →
    step s = .refused (.reservedWord w)

/-- R11: a step yields the next state or is refused, and presenting a reserved word is the only refused step; there is
no fault outcome. -/
def Obligations.StepRunsUnlessReserved : Prop :=
  ∀ s : State, (∃ t, step s = .next t) ∨
    ∃ (w : CommandWord) (rest : List Event), s.schedule = .command w :: rest ∧
      (w.toNat = 0 ∨ 8 ≤ w.toNat) ∧ step s = .refused (.reservedWord w)

/-- R10, R70: when the next agent step presents a word that decodes to an operation, the step is `exec` of that
operation in the state with that entry taken off the schedule. -/
def Obligations.StepRunsTheDecodedOperation : Prop :=
  ∀ (s : State) (w : CommandWord) (rest : List Event) (i : Instr),
    s.schedule = .command w :: rest → decode w = .ok i → step s = exec i { s with schedule := rest }

/-- The model's choice (log entry 2): with no agent step left, the state stays. R201 says only that no operation runs
until the host issues one. -/
def Obligations.EmptyScheduleKeepsState : Prop :=
  ∀ s : State, s.schedule = [] → step s = .next s

/-! ### Environment steps -/

/-- R170: TIME(k) adds k to NOW modulo 2^TW and changes nothing else. -/
def Obligations.TimeAdvancesNow : Prop :=
  ∀ (s : State) (k : Nat) (rest : List Event), s.schedule = .time k :: rest →
    ∃ t, step s = .next t ∧ t.now.toNat = (s.now.toNat + k) % 2 ^ TW ∧
      t = { s with schedule := rest, now := t.now }

/-- R171: TICK(k) adds k to CNT modulo 2^CW and changes nothing else. -/
def Obligations.TickAdvancesCounter : Prop :=
  ∀ (s : State) (k : Nat) (rest : List Event), s.schedule = .tick k :: rest →
    ∃ t, step s = .next t ∧ t.cnt.toNat = (s.cnt.toNat + k) % 2 ^ CW ∧
      t = { s with schedule := rest, cnt := t.cnt }

/-- R77 (`.now t`): NOW takes the value t and nothing else changes; and it is the TIME step that ends at t (log entry
10). -/
def Obligations.NowDirectiveSetsNow : Prop :=
  ∀ (s : State) (t : TimeValue) (rest : List Event), s.schedule = .now t :: rest →
    step s = .next { s with schedule := rest, now := t } ∧
    step s = step { s with schedule := .time ((t.toNat + 2 ^ TW - s.now.toNat) % 2 ^ TW) :: rest }

/-- R173 (dispatch) and R174: a falling edge runs EDGE, once, exactly when PIN_MODE = INPUT_IRQ or SPURIOUS_EDGES is
true; otherwise it runs nothing and only leaves the schedule. -/
def Obligations.FallRunsEdgeWhenDispatched : Prop :=
  ∀ (s : State) (rest : List Event), s.schedule = .fall :: rest →
    (s.pinMode = .inputIrq ∨ s.params.spuriousEdges = true → step s = exec .edge { s with schedule := rest }) ∧
    (¬ (s.pinMode = .inputIrq ∨ s.params.spuriousEdges = true) → step s = .next { s with schedule := rest })

/-- R197 and R200: a power loss loses every register; the parameters stay. The event itself, and that the schedule and
the responses stay, are the model's (log entry 7). -/
def Obligations.PowerLossResetsRegisters : Prop :=
  ∀ (s : State) (n : TimeValue) (c : Count) (rest : List Event), s.schedule = .powerCycle n c :: rest →
    step s = .next { params := s.params, state := .init, bitcnt := 0, frame := 0, snap := 0, storedTInt := 0, storedTDec := 0, storedHInt := 0, outcome := 0, pinMode := .unconfigured, pinLevel := .unknown, cnt := c, now := n, schedule := rest, responses := s.responses }

/-- R175: the block drives the line at PIN_LEVEL exactly while PIN_MODE = OUTPUT. -/
def Obligations.LineDrivenOnlyAsOutput : Prop :=
  ∀ s : State, (s.pinMode = .output → s.drive = some s.pinLevel) ∧
    (s.pinMode = .inputIrq ∨ s.pinMode = .unconfigured → s.drive = none)

/-! ### INITIALIZE, REQUEST and POLL -/

/-- R100: in every state INITIALIZE sets PIN_MODE = OUTPUT and STATE = INIT and changes nothing else; after it no falling
edge is dispatched unless SPURIOUS_EDGES is true. -/
def Obligations.InitializeResetsStateAndPin : Prop :=
  ∀ s : State, encode .initialise = 0x01 ∧
    exec .initialise s = .next { s with pinMode := .output, state := .init } ∧
    ∀ t, exec .initialise s = .next t → t.edgeDispatched = s.params.spuriousEdges

/-- R101: REQUEST takes IDLE to STARTCOMM_INIT and does nothing in every other state; nothing else changes. -/
def Obligations.RequestStartsOnlyFromIdle : Prop :=
  ∀ s : State, encode .request = 0x02 ∧
    (s.state = .idle → exec .request s = .next { s with state := .startcommInit }) ∧
    (s.state ≠ .idle → exec .request s = .next s)

/-- R57 and R101: a second REQUEST changes nothing. -/
def Obligations.SecondRequestIsNoOp : Prop :=
  ∀ s : State, ∃ t, exec .request s = .next t ∧ exec .request t = .next t

/-- R103: POLL in IDLE does nothing. -/
def Obligations.PollInIdle : Prop :=
  ∀ s : State, s.state = .idle → exec .poll s = .next s

/-- R104: POLL in INIT makes the pin an output at the high level and goes to IDLE. -/
def Obligations.PollInInit : Prop :=
  ∀ s : State, s.state = .init →
    exec .poll s = .next { s with pinMode := .output, pinLevel := .high, state := .idle }

/-- R105: POLL in STARTCOMM_INIT clears BITCNT, drives the pin low, takes the snapshot and goes to STARTCOMM_DELAY;
PIN_MODE, FRAME and everything else stay. The second clause is R105's corner case "On every path from power-on,
PIN_MODE = OUTPUT here", which the spec marks as derived from R100, R104 and R101: it says so of every state that meets
the model's pin invariant, which power-on meets and every step keeps (PowerOnMeetsInvariant, StepKeepsInvariant). -/
def Obligations.PollInStartcommInit : Prop :=
  ∀ s : State, s.state = .startcommInit →
    exec .poll s = .next { s with bitcnt := 0, pinLevel := .low, snap := s.now, state := .startcommDelay } ∧
    (s.PinInv → s.pinMode = .output)

/-- R106: POLL in STARTCOMM_DELAY stays until the elapsed time, modulo 2^TW, is at least T_START; then it releases the
line, clears FRAME, arms the edge interrupt, clears CNT and goes to STARTCOMM_END. -/
def Obligations.PollInStartcommDelay : Prop :=
  ∀ s : State, s.state = .startcommDelay →
    ((s.now.toNat + 2 ^ TW - s.snap.toNat) % 2 ^ TW ≥ s.params.tStart →
      exec .poll s = .next { s with pinLevel := .high, frame := 0, pinMode := .inputIrq, cnt := 0, state := .startcommEnd }) ∧
    ((s.now.toNat + 2 ^ TW - s.snap.toNat) % 2 ^ TW < s.params.tStart → exec .poll s = .next s)

/-- R107: POLL in STARTCOMM_END takes the snapshot and goes to RX_DATA. -/
def Obligations.PollInStartcommEnd : Prop :=
  ∀ s : State, s.state = .startcommEnd → exec .poll s = .next { s with snap := s.now, state := .rxData }

/-- R108: POLL in RX_DATA goes to EVAL_DATA exactly when the elapsed time, modulo 2^TW, is at least T_RX or BITCNT is at
least N_BITS; nothing else changes. -/
def Obligations.PollInRxData : Prop :=
  ∀ s : State, s.state = .rxData →
    ((s.now.toNat + 2 ^ TW - s.snap.toNat) % 2 ^ TW ≥ s.params.tRx ∨ s.bitcnt.toNat ≥ s.params.nBits →
      exec .poll s = .next { s with state := .evalData }) ∧
    ((s.now.toNat + 2 ^ TW - s.snap.toNat) % 2 ^ TW < s.params.tRx ∧ s.bitcnt.toNat < s.params.nBits →
      exec .poll s = .next s)

/-- R109 and R148 (with R140 to R146): POLL in EVAL_DATA, written on the numeric value of FRAME. Field k is
FRAME / 2^(8k) mod 256; the checksum matches when the four data fields sum to the lowest one modulo 256; the frame is
short when BITCNT < N_BITS; COMMIT_POLICY decides whether the three StoredReading registers take their fields or keep
their values; OUTCOME takes {commit, timeout, ok, 1}; STATE goes to INIT; nothing else changes. -/
def Obligations.PollInEvalDataEvaluates : Prop :=
  ∀ (s : State) (ok short commit : Bool), s.state = .evalData →
    ok = decide ((s.frame.toNat / 2 ^ 32 % 256 + s.frame.toNat / 2 ^ 24 % 256 + s.frame.toNat / 2 ^ 16 % 256 +
      s.frame.toNat / 2 ^ 8 % 256) % 256 = s.frame.toNat % 256) →
    short = decide (s.bitcnt.toNat < s.params.nBits) →
    commit = (match s.params.commitPolicy with
      | .strict => ok
      | .always => true
      | .strictFull => ok && !short) →
    ∃ t, exec .poll s = .next t ∧
      t.outcome.toNat = 8 * commit.toNat + 4 * short.toNat + 2 * ok.toNat + 1 ∧
      (commit = true → t.storedTInt.toNat = s.frame.toNat / 2 ^ 16 % 256 ∧
        t.storedTDec.toNat = s.frame.toNat / 2 ^ 8 % 256 ∧ t.storedHInt.toNat = s.frame.toNat / 2 ^ 32 % 256) ∧
      (commit = false → t.storedTInt = s.storedTInt ∧ t.storedTDec = s.storedTDec ∧ t.storedHInt = s.storedHInt) ∧
      t = { s with state := .init, outcome := t.outcome, storedTInt := t.storedTInt, storedTDec := t.storedTDec, storedHInt := t.storedHInt }

/-- R110: POLL with STATE = 7 goes to INIT and changes nothing else; the next POLL is the INIT POLL. -/
def Obligations.PollRecoversUnrecognizedState : Prop :=
  ∀ s : State, s.state = .unrecognized →
    exec .poll s = .next { s with state := .init } ∧
    exec .poll { s with state := .init } = .next { s with pinMode := .output, pinLevel := .high, state := .idle }

/-- R102 with R103 to R110: in every state POLL answers a next state, and STATE stays or moves along one edge of the
state table. -/
def Obligations.PollMovesAlongTheTable : Prop :=
  ∀ s : State, ∃ t, exec .poll s = .next t ∧
    (s.state, t.state) ∈ [(ProtocolState.init, ProtocolState.idle), (.idle, .idle),
      (.startcommInit, .startcommDelay), (.startcommDelay, .startcommDelay), (.startcommDelay, .startcommEnd),
      (.startcommEnd, .rxData), (.rxData, .rxData), (.rxData, .evalData), (.evalData, .init), (.unrecognized, .init)]

/-! ### EDGE -/

/-- R130: in every state EDGE shifts one bit into FRAME (the old bit 39 is lost), 1 exactly when CNT exceeds
BIT_THRESHOLD, adds 1 to BITCNT modulo 2^BW, clears CNT, and changes nothing else. -/
def Obligations.EdgeCapturesOneBit : Prop :=
  ∀ s : State, encode .edge = 0x04 ∧ ∃ t, exec .edge s = .next t ∧
    t.frame.toNat = (2 * s.frame.toNat + (if s.cnt.toNat > s.params.bitThreshold then 1 else 0)) % 2 ^ 40 ∧
    t.bitcnt.toNat = (s.bitcnt.toNat + 1) % 2 ^ BW ∧ t.cnt = 0 ∧
    t = { s with frame := t.frame, bitcnt := t.bitcnt, cnt := t.cnt }

/-- R132 and R64: EDGE reads no time source other than CNT; with any other NOW and SNAP it does the same. -/
def Obligations.EdgeIgnoresElapsedTime : Prop :=
  ∀ (s : State) (n m : TimeValue), ∃ t, exec .edge s = .next t ∧
    exec .edge { s with now := n, snap := m } = .next { t with now := n, snap := m }

/-- R64: POLL never reads CNT. With any other CNT it does the same, and it leaves CNT at that value but for the reset on
the STARTCOMM_DELAY exit. -/
def Obligations.PollIgnoresTheCounter : Prop :=
  ∀ (s : State) (c : Count), ∃ t, exec .poll s = .next t ∧
    exec .poll { s with cnt := c } =
      .next { t with cnt := if s.state = .startcommDelay ∧ t.state = .startcommEnd then 0 else c }

/-- R131 (with R173): from FRAME = 0 and CNT = 0 in interrupt-input mode, the intervals ks, each followed by a falling
edge, leave the decoded bits right-aligned in FRAME with the last at bit 0 and at most the last 40 of them; BITCNT has
counted them modulo 2^BW. The i-th bit from the right is that of the i-th interval from the end. -/
def Obligations.EdgesFillTheFrame : Prop :=
  ∀ (s : State) (ks : List Nat) (rest : List Event), s.pinMode = .inputIrq → s.frame = 0 → s.cnt = 0 →
    s.schedule = ks.flatMap (fun k => [Event.tick k, Event.fall]) ++ rest →
    ∃ t, runSteps (2 * ks.length) s = .next t ∧
      (∀ i < 40, t.frame.getLsbD i =
        if i < ks.length then decide (ks.reverse.getD i 0 % 2 ^ CW > s.params.bitThreshold) else false) ∧
      t.bitcnt.toNat = (s.bitcnt.toNat + ks.length) % 2 ^ BW ∧
      t = { s with schedule := rest, frame := t.frame, bitcnt := t.bitcnt, cnt := 0 }

/-- R78 (FRAME40 v) with R131: at BIT_THRESHOLD = 85, from CNT = 0 in interrupt-input mode, whatever FRAME held, the
pseudo-instruction leaves v in FRAME and has counted 40 edges. -/
def Obligations.Frame40DeliversTheFrame : Prop :=
  ∀ (s : State) (v : Frame) (rest : List Event), s.pinMode = .inputIrq → s.cnt = 0 → s.params.bitThreshold = 85 →
    s.schedule = assemble [.frame40 v] ++ rest →
    runSteps 80 s = .next { s with schedule := rest, frame := v, bitcnt := s.bitcnt + 40 }

/-! ### Accessors -/

/-- R160: GET_TEMP answers {STORED_T_INT, STORED_T_DEC}, integer byte in bits [15:8], and changes nothing else. -/
def Obligations.GetTempAnswersStoredTemperature : Prop :=
  ∀ s : State, encode .getTemp = 0x05 ∧ ∃ v : BitVec 16,
    v.toNat = 256 * s.storedTInt.toNat + s.storedTDec.toNat ∧
    exec .getTemp s = .next { s with responses := .temp v :: s.responses }

/-- R161: GET_HUM answers STORED_H_INT and changes nothing else. -/
def Obligations.GetHumAnswersStoredHumidity : Prop :=
  ∀ s : State, encode .getHum = 0x06 ∧
    exec .getHum s = .next { s with responses := .hum s.storedHInt :: s.responses }

/-- R162 with the codes of R21: GET_STATUS answers {0, STATE, OUTCOME} and changes nothing else. -/
def Obligations.GetStatusAnswersStateAndOutcome : Prop :=
  ∀ s : State, encode .getStatus = 0x07 ∧ ∃ v : BitVec 8,
    v.toNat = 16 * (match s.state with
      | .init => 0
      | .idle => 1
      | .startcommInit => 2
      | .startcommDelay => 3
      | .startcommEnd => 4
      | .rxData => 5
      | .evalData => 6
      | .unrecognized => 7) + s.outcome.toNat ∧
    exec .getStatus s = .next { s with responses := .status v :: s.responses }

/-- R187 with R57: an accessor and an EDGE that are ready together lead to the same state in either order. -/
def Obligations.AccessorCommutesWithEdge : Prop :=
  ∀ (s : State) (i : Instr), i = .getTemp ∨ i = .getHum ∨ i = .getStatus →
    ∃ t u v, exec i s = .next t ∧ exec .edge t = .next v ∧ exec .edge s = .next u ∧ exec i u = .next v

/-- About the model's own list of responses (log entry 3, DESIGN CHOICE: the spec says that an operation returns a value,
R14 and R74, and not where a returned value is kept): the responses already given influence nothing; with any other list
of them a step does the same and adds the same new ones. -/
def Obligations.ResponsesInfluenceNothing : Prop :=
  ∀ (s t : State) (rs : List Response), step s = .next t →
    ∃ new, t.responses = new ++ s.responses ∧
      step (s.withResponses rs) = .next (t.withResponses (new ++ rs))

/-! ### Whole-machine rules -/

/-- R22: STATE is written only by POLL, INITIALIZE and REQUEST (and by power-on reset, log entry 7). -/
def Obligations.OnlyHostOperationsWriteState : Prop :=
  ∀ s t : State, step s = .next t → t.state ≠ s.state → ∃ (e : Event) (rest : List Event), s.schedule = e :: rest ∧
    (e = .command 0x01 ∨ (e = .command 0x02 ∧ s.state = .idle ∧ t.state = .startcommInit) ∨ e = .command 0x03 ∨
      ∃ n c, e = .powerCycle n c)

/-- R21: the codes of the eight values of STATE, and no step writes 7. -/
def Obligations.NoStepWritesSeven : Prop :=
  (ProtocolState.init.code = 0 ∧ ProtocolState.idle.code = 1 ∧ ProtocolState.startcommInit.code = 2 ∧
    ProtocolState.startcommDelay.code = 3 ∧ ProtocolState.startcommEnd.code = 4 ∧ ProtocolState.rxData.code = 5 ∧
    ProtocolState.evalData.code = 6 ∧ ProtocolState.unrecognized.code = 7) ∧
  (∀ c : BitVec 3, (ProtocolState.ofCode c).code = c) ∧
  ∀ s t : State, step s = .next t → t.state.code = 7 → s.state.code = 7 ∧ t.state = s.state

/-- R31, R32, R171: who writes the two time sources. NOW changes only by an environment step (or power-on). CNT changes
only by TICK, by a clear in EDGE (presented, or run by a dispatched falling edge), by the clear on the STARTCOMM_DELAY
exit, or by power-on. -/
def Obligations.TimeSourceWriters : Prop :=
  ∀ s t : State, step s = .next t →
    (t.now ≠ s.now → ∃ (e : Event) (rest : List Event), s.schedule = e :: rest ∧
      ((∃ k, e = .time k) ∨ e = .now t.now ∨ ∃ c, e = .powerCycle t.now c)) ∧
    (t.cnt ≠ s.cnt → ∃ (e : Event) (rest : List Event), s.schedule = e :: rest ∧
      ((∃ k, e = .tick k) ∨ (e = .command 0x04 ∧ t.cnt = 0) ∨
        (e = .fall ∧ (s.pinMode = .inputIrq ∨ s.params.spuriousEdges = true) ∧ t.cnt = 0) ∨
        (e = .command 0x03 ∧ s.state = .startcommDelay ∧ t.state = .startcommEnd ∧ t.cnt = 0) ∨
        ∃ n, e = .powerCycle n t.cnt))

/-- R23, R24, R25: who writes BITCNT, FRAME and SNAP. BITCNT is cleared by POLL in STARTCOMM_INIT and counted by EDGE;
FRAME is cleared on the STARTCOMM_DELAY exit and shifted by EDGE; SNAP takes NOW in POLL in STARTCOMM_INIT and
STARTCOMM_END; power-on aside, nothing else changes them. -/
def Obligations.CaptureRegisterWriters : Prop :=
  ∀ s t : State, step s = .next t → (∀ n c rest, s.schedule ≠ .powerCycle n c :: rest) →
    (t.bitcnt ≠ s.bitcnt → (s.nextIsPoll = true ∧ s.state = .startcommInit ∧ t.bitcnt = 0) ∨
      (s.nextRunsEdge = true ∧ t.bitcnt = s.bitcnt + 1)) ∧
    (t.frame ≠ s.frame → (s.nextIsPoll = true ∧ s.state = .startcommDelay ∧ t.state = .startcommEnd ∧ t.frame = 0) ∨
      (s.nextRunsEdge = true ∧ t.frame.toNat / 2 = s.frame.toNat % 2 ^ 39)) ∧
    (t.snap ≠ s.snap → s.nextIsPoll = true ∧ (s.state = .startcommInit ∨ s.state = .startcommEnd) ∧ t.snap = s.now)

/-- R29, R30: who writes PIN_MODE and PIN_LEVEL. PIN_MODE becomes OUTPUT by INITIALIZE and POLL in INIT, and INPUT_IRQ on
the STARTCOMM_DELAY exit; PIN_LEVEL becomes HIGH by POLL in INIT and on the STARTCOMM_DELAY exit, and LOW by POLL in
STARTCOMM_INIT; power-on aside, nothing else changes them. -/
def Obligations.PinWriters : Prop :=
  ∀ s t : State, step s = .next t → (∀ n c rest, s.schedule ≠ .powerCycle n c :: rest) →
    (t.pinMode ≠ s.pinMode → ∃ (e : Event) (rest : List Event), s.schedule = e :: rest ∧
      ((e = .command 0x01 ∧ t.pinMode = .output) ∨ (e = .command 0x03 ∧ s.state = .init ∧ t.pinMode = .output) ∨
        (e = .command 0x03 ∧ s.state = .startcommDelay ∧ t.state = .startcommEnd ∧ t.pinMode = .inputIrq))) ∧
    (t.pinLevel ≠ s.pinLevel → ∃ rest, s.schedule = .command 0x03 :: rest ∧
      ((s.state = .init ∧ t.pinLevel = .high) ∨ (s.state = .startcommInit ∧ t.pinLevel = .low) ∨
        (s.state = .startcommDelay ∧ t.state = .startcommEnd ∧ t.pinLevel = .high)))

/-- R26, R27, R208: StoredReading and OUTCOME are written only by POLL in EVAL_DATA (and by power-on reset). -/
def Obligations.OnlyEvaluationWritesTheRecord : Prop :=
  ∀ s t : State, step s = .next t →
    (t.storedTInt ≠ s.storedTInt ∨ t.storedTDec ≠ s.storedTDec ∨ t.storedHInt ≠ s.storedHInt ∨
      t.outcome ≠ s.outcome) →
    ∃ (e : Event) (rest : List Event), s.schedule = e :: rest ∧
      ((e = .command 0x03 ∧ s.state = .evalData ∧ t.state = .init) ∨ ∃ n c, e = .powerCycle n c)

/-- R56 and R149 (third property): no step but power-on reset updates StoredReading in part. Either it keeps all three
registers, or it sets all three from the fields of one FRAME value. -/
def Obligations.ReadingIsNeverPartlyUpdated : Prop :=
  ∀ s t : State, step s = .next t → (∀ n c rest, s.schedule ≠ .powerCycle n c :: rest) →
    (t.storedTInt = s.storedTInt ∧ t.storedTDec = s.storedTDec ∧ t.storedHInt = s.storedHInt) ∨
    (t.storedTInt.toNat = s.frame.toNat / 2 ^ 16 % 256 ∧ t.storedTDec.toNat = s.frame.toNat / 2 ^ 8 % 256 ∧
      t.storedHInt.toNat = s.frame.toNat / 2 ^ 32 % 256 ∧ t.frame = s.frame)

/-- R27: DONE is never cleared except by power-on reset. -/
def Obligations.DoneStaysSet : Prop :=
  ∀ s t : State, step s = .next t → (∀ n c rest, s.schedule ≠ .powerCycle n c :: rest) →
    s.outcome.getLsbD 0 = true → t.outcome.getLsbD 0 = true

/-- R200 (last sentence): no step changes the parameters of the run. -/
def Obligations.ParametersAreFixed : Prop :=
  ∀ s t : State, step s = .next t → t.params = s.params

/-- R33 (columns ENV and EDGE) and R208: a burst of environment steps, falling edges among them, in any state, runs
through and changes only FRAME, BITCNT, CNT and NOW; so a late edge changes neither StoredReading nor OUTCOME. -/
def Obligations.EnvironmentChangesOnlyCaptureState : Prop :=
  ∀ (s : State) (es rest : List Event), (∀ e ∈ es, e.isEnvironment = true) → s.schedule = es ++ rest →
    ∃ t, runSteps es.length s = .next t ∧
      t = { s with schedule := rest, frame := t.frame, bitcnt := t.bitcnt, cnt := t.cnt, now := t.now }

/-- R8 and R174: every run with SPURIOUS_EDGES = false is a run with true in which the falling edges that false does not
dispatch do not happen. From the same state with the parameter at true and exactly those edges taken out of the schedule
(order kept, nothing but falling edges taken out), the run goes through and ends in the same state with the parameter at
true. Since this holds for every length, it holds of every state along the run. -/
def Obligations.SpuriousEdgesOnlyAddRuns : Prop :=
  ∀ (n : Nat) (s t : State), s.params.spuriousEdges = false → runSteps n s = .next t →
    (s.dispatchedEvents n).Sublist (s.schedule.take n) ∧
    (s.dispatchedEvents n).filter (· != .fall) = (s.schedule.take n).filter (· != .fall) ∧
    runSteps (s.dispatchedEvents n).length
      (s.allowingSpuriousEdges.withSchedule (s.dispatchedEvents n ++ s.schedule.drop n)) = .next t.allowingSpuriousEdges

/-! ### Faults and the outcome record -/

/-- R181: the cause codes, and how each of the three faults a POLL detects is recorded: TIMEOUT in OUTCOME.TIMEOUT,
CHECKSUM as OUTCOME.CKSUM_OK = 0, INVALID_STATE not at all (STATE goes to INIT). -/
def Obligations.FaultsAreRecorded : Prop :=
  (FaultCause.timeout.code = 1 ∧ FaultCause.checksum.code = 2 ∧ FaultCause.invalidState.code = 3) ∧
  ∀ s : State, ∃ t, exec .poll s = .next t ∧
    (s.state = .evalData → t.outcome.getLsbD 2 = s.pollDetects .timeout ∧
      t.outcome.getLsbD 1 = !s.pollDetects .checksum ∧ s.pollDetects .invalidState = false) ∧
    (s.pollDetects .invalidState = true → t.outcome = s.outcome ∧ t.state = .init ∧
      s.pollDetects .timeout = false ∧ s.pollDetects .checksum = false)

/-- R147: the value of OUTCOME after EVAL_DATA, row by row of the table (the row 0b0000 is the power-on value). -/
def Obligations.OutcomeTable : Prop :=
  ∀ (p : Params) (n : TimeValue) (c : Count), (State.powerOn p n c).outcome = 0b0000 ∧
  ∀ (s : State), s.state = .evalData → ∃ t, exec .poll s = .next t ∧
    t.outcome =
      match checksumOk s.frame, decide (s.bitcnt.toNat < s.params.nBits), s.params.commitPolicy with
      | true, false, _ => 0b1011
      | false, false, .always => 0b1001
      | false, false, _ => 0b0001
      | true, true, .strictFull => 0b0111
      | true, true, _ => 0b1111
      | false, true, .always => 0b1101
      | false, true, _ => 0b0101

/-- R143 and conflict C1: a frame with no bits passes the checksum. With FRAME = 0 and BITCNT = 0, STRICT and ALWAYS
commit a reading of zero and STRICT_FULL keeps the old one; OUTCOME.TIMEOUT is 1 under every policy. -/
def Obligations.EmptyFramePassesTheChecksum : Prop :=
  ∀ s : State, s.state = .evalData → s.frame = 0 → s.bitcnt = 0 → 0 < s.params.nBits →
    (s.params.commitPolicy ≠ .strictFull → exec .poll s =
      .next { s with state := .init, outcome := 0b1111, storedTInt := 0, storedTDec := 0, storedHInt := 0 }) ∧
    (s.params.commitPolicy = .strictFull → exec .poll s = .next { s with state := .init, outcome := 0b0111 })

/-- R149 (first and second property, the first read with R146 where STRICT_FULL withholds a short frame, log entry 16):
a frame of five byte fields whose checksum matches is stored under STRICT and ALWAYS, and under STRICT_FULL when it is
not short; under STRICT and STRICT_FULL a frame whose checksum does not match leaves StoredReading unchanged. -/
def Obligations.ChecksumGatesTheReading : Prop :=
  ∀ (s : State) (hi hd ti td ck : Byte), s.state = .evalData → s.frame = frameOf hi hd ti td ck →
    ∃ t, exec .poll s = .next t ∧
      (ck = hi + hd + ti + td →
        s.params.commitPolicy ≠ .strictFull ∨ s.params.nBits ≤ s.bitcnt.toNat →
        t.storedTInt = ti ∧ t.storedTDec = td ∧ t.storedHInt = hi) ∧
      (ck ≠ hi + hd + ti + td → s.params.commitPolicy ≠ .always →
        t.storedTInt = s.storedTInt ∧ t.storedTDec = s.storedTDec ∧ t.storedHInt = s.storedHInt)

/-- The first property of R149 to the letter ("Under every policy, if EVAL_DATA runs with a FRAME whose checksum matches,
StoredReading afterwards equals …"). R146 contradicts it: STRICT_FULL withholds a short frame that passes (log entry
16), so this is expected to fail. -/
def Obligations.MatchingFrameIsStoredUnderEveryPolicy : Prop :=
  ∀ (s : State) (hi hd ti td ck : Byte), s.state = .evalData → s.frame = frameOf hi hd ti td ck →
    ck = hi + hd + ti + td →
    ∃ t, exec .poll s = .next t ∧ t.storedTInt = ti ∧ t.storedTDec = td ∧ t.storedHInt = hi

/-- R149 and R131 at N_BITS = 40 and BIT_THRESHOLD = 85: in RX_DATA, the 40 edges of a frame whose checksum matches and
then two POLLs store the frame's fields under every policy, with OUTCOME 0b1011 and STATE = INIT, whatever FRAME held
before. -/
def Obligations.DeliveredFrameIsStored : Prop :=
  ∀ (s : State) (hi hd ti td : Byte) (rest : List Event), s.state = .rxData → s.pinMode = .inputIrq → s.cnt = 0 →
    s.bitcnt = 0 → s.params.bitThreshold = 85 → s.params.nBits = 40 →
    s.schedule = assemble [.frame40 (frameOf hi hd ti td (hi + hd + ti + td)), .op .poll, .op .poll] ++ rest →
    runSteps 82 s = .next { s with schedule := rest, state := .init, bitcnt := 40, frame := frameOf hi hd ti td (hi + hd + ti + td), outcome := 0b1011, storedTInt := ti, storedTDec := td, storedHInt := hi }

/-! ### Invariants -/

/-- R173 (the interrupt window), R104 to R106, R21, R26, R27, R146 and R147: every step keeps the invariant. Whatever the
agents do, PIN_MODE and PIN_LEVEL follow STATE (INPUT_IRQ only from the STARTCOMM_DELAY exit to the INIT POLL or
INITIALIZE), and OUTCOME is a value the policy allows. -/
def Obligations.StepKeepsInvariant : Prop :=
  ∀ s t : State, s.Inv → step s = .next t → t.Inv

/-- The invariants hold after power-on with every draw, and so at `State.reset` (whose draws of zero are log entry 6). -/
def Obligations.PowerOnMeetsInvariant : Prop :=
  (∀ (p : Params) (n : TimeValue) (c : Count), (State.powerOn p n c).Inv) ∧
  (∀ (p : Params) (n : TimeValue) (c : Count), p.spuriousEdges = false → (State.powerOn p n c).PulseInv) ∧
  State.reset.Inv ∧ State.reset.PulseInv

/-- R207: when SPURIOUS_EDGES is false and every edge comes through the port, no step counts a bit during the host's low
pulse: BITCNT stays 0 in STARTCOMM_DELAY. -/
def Obligations.StepKeepsPulseInvariant : Prop :=
  ∀ s t : State, s.PulseInv → step s = .next t → t.PulseInv

/-! ### Time and progress -/

/-- R205: elapsed time counts modulo 2^TW; a TIME(k) step adds k to it, so a gap of 2^TW units reads as nothing. -/
def Obligations.ElapsedTimeWraps : Prop :=
  ∀ (s : State) (k : Nat) (rest : List Event), s.schedule = .time k :: rest →
    ∃ t, step s = .next t ∧ t.el = (s.el + k) % 2 ^ TW

/-- R111 (E7, no hang): when a POLL sees the timeout in RX_DATA, it moves to EVAL_DATA, the next POLL moves to INIT and
the one after to IDLE with the line released high, whatever the environment does between them. -/
def Obligations.TimeoutReachesIdleInThreePolls : Prop :=
  ∀ (s : State) (es fs rest : List Event), s.state = .rxData →
    (s.now.toNat + 2 ^ TW - s.snap.toNat) % 2 ^ TW ≥ s.params.tRx →
    (∀ e ∈ es, e.isEnvironment = true) → (∀ e ∈ fs, e.isEnvironment = true) →
    s.schedule = .command 0x03 :: (es ++ .command 0x03 :: (fs ++ .command 0x03 :: rest)) →
    ∃ t u v, runSteps 1 s = .next t ∧ t.state = .evalData ∧
      runSteps (es.length + 1) t = .next u ∧ u.state = .init ∧
      runSteps (fs.length + 1) u = .next v ∧ v.state = .idle ∧ v.pinMode = .output ∧ v.pinLevel = .high ∧
      v.schedule = rest

/-- R111 (lower bound): a run from STARTCOMM_INIT that ends in IDLE, with no INITIALIZE and no power loss in it, has at
least 6 POLLs. -/
def Obligations.CycleTakesAtLeastSixPolls : Prop :=
  ∀ (s t : State) (es rest : List Event), s.state = .startcommInit → s.schedule = es ++ rest →
    (∀ e ∈ es, e ≠ .command 0x01 ∧ ∀ n c, e ≠ .powerCycle n c) →
    runSteps es.length s = .next t → t.state = .idle → 6 ≤ (es.filter Event.isPoll).length

/-- R111 (the bound is reached) and R112: from STARTCOMM_INIT, for every T_START and T_RX that fit in NOW, 6 POLLs with
the clock advanced by T_START and by T_RX between them return to IDLE. -/
def Obligations.CycleOfSixPollsReachesIdle : Prop :=
  ∀ (s : State) (rest : List Event), s.state = .startcommInit → s.params.tStart < 2 ^ TW → s.params.tRx < 2 ^ TW →
    s.schedule = [.command 0x03, .time s.params.tStart, .command 0x03, .command 0x03, .time s.params.tRx,
      .command 0x03, .command 0x03, .command 0x03] ++ rest →
    ∃ t, runSteps 8 s = .next t ∧ t.state = .idle ∧ t.pinMode = .output ∧ t.pinLevel = .high ∧
      t.outcome.getLsbD 0 = true ∧ t.schedule = rest

/-! ### SPURIOUS_EDGES, one step -/

/-- R8 and R174, for one step: a step taken with SPURIOUS_EDGES = false is also taken with true, from the same state with
only the parameter changed, unless it takes a falling edge that false does not dispatch; that step changes nothing but
the schedule. -/
def Obligations.SpuriousEdgesAgreeOnOneStep : Prop :=
  ∀ s t : State, s.params.spuriousEdges = false → step s = .next t →
    step s.allowingSpuriousEdges = .next t.allowingSpuriousEdges ∨
    ∃ rest, s.schedule = .fall :: rest ∧ s.edgeDispatched = false ∧ t = { s with schedule := rest }
end

