-- ==== Sys2Proof/Laws/Decode.lean ====
section
/-! SUPPORT. The decoder and the encoder: the opcode map is unambiguous, and the decoder accepts exactly the words that
are well formed. -/

namespace Sys2Proof

/-- No two rows of the opcode map overlap. -/
theorem opcodeTable_rows_disjoint :
    opcodeTable.Pairwise (fun r q => r.pattern &&& q.mask ≠ q.pattern &&& r.mask) := by
  decide

/-- Every row's pattern lies within its mask. -/
theorem opcodeTable_rows_within_mask : ∀ r ∈ opcodeTable, r.pattern &&& r.mask = r.pattern := by
  decide

/-- The decoder's verdict on every well-formed word (R72). -/
theorem decode_isOk_of_wf :
    ∀ w : CommandWord, CommandWord.wf w = true → (decode w).isOk = true := by
  decide

/-- A word that is not well formed is rejected by its own name (R75). -/
theorem decode_of_not_wf :
    ∀ w : CommandWord, CommandWord.wf w = false → decode w = .error (.reservedWord w) := by
  intro w h
  have key : ∀ w : CommandWord, CommandWord.wf w = false →
      (opcodeTable.find? (OpcodeRow.hits w)).isNone = true := by decide
  have hn := key w h
  simp only [Option.isNone_iff_eq_none] at hn
  simp [decode, hn]

/-- The decoder rejects a word only by that word's own name. -/
theorem decode_error {w v : CommandWord} (h : decode w = .error (.reservedWord v)) : v = w := by
  unfold decode at h
  split at h
  · cases h
  · injection h with h; injection h with h; exact h.symm

/-- A rejected word is not well formed, as a range of its value. -/
theorem not_wf_iff (w : CommandWord) :
    CommandWord.wf w = false ↔ w.toNat = 0 ∨ 8 ≤ w.toNat := by
  revert w; decide

@[simp] theorem encode_initialise : encode .initialise = 0x01 := rfl
@[simp] theorem encode_request : encode .request = 0x02 := rfl
@[simp] theorem encode_poll : encode .poll = 0x03 := rfl
@[simp] theorem encode_edge : encode .edge = 0x04 := rfl
@[simp] theorem encode_getTemp : encode .getTemp = 0x05 := rfl
@[simp] theorem encode_getHum : encode .getHum = 0x06 := rfl
@[simp] theorem encode_getStatus : encode .getStatus = 0x07 := rfl

end Sys2Proof
end

