-- ==== Sys2Proof/Laws/Operands.lean ====
section
/-! SUPPORT. One lemma for each operand form and flag computation, on numeric values. -/

namespace Sys2Proof.Machine

/-- Elapsed time is the difference modulo 2^TW (R25). -/
theorem elapsed_eq_mod (now snap : TimeValue) :
    elapsed now snap = (now.toNat + 2 ^ TW - snap.toNat) % 2 ^ TW := by
  have h1 := now.isLt; have h2 := snap.isLt
  simp only [elapsed, BitVec.toNat_sub]
  congr 1; omega

/-- Elapsed time after the clock advanced by `k` (R170, R205). -/
theorem elapsed_add (now snap : TimeValue) (k : Nat) :
    elapsed (now + BitVec.ofNat TW k) snap = (elapsed now snap + k) % 2 ^ TW := by
  simp only [elapsed, BitVec.toNat_sub, BitVec.toNat_add, BitVec.toNat_ofNat, Nat.add_mod_mod, Nat.mod_add_mod]
  rw [Nat.add_assoc]

/-- The clock set to `t` by the advance that ends there (R77, R170). -/
theorem advance_to (now t : TimeValue) : now + BitVec.ofNat TW (t - now).toNat = t := by
  rw [BitVec.ofNat_toNat, BitVec.setWidth_eq, BitVec.add_comm, BitVec.sub_add_cancel]

/-- The numeric value of a byte field (R53). -/
theorem byteField_toNat (k : Nat) (f : Frame) : (byteField k f).toNat = f.toNat / 2 ^ (8 * k) % 256 := by
  simp [byteField, BitVec.extractLsb'_toNat, Nat.shiftRight_eq_div_pow]

/-- The shift as doubling modulo 2^40 (R130). -/
theorem shiftIn_toNat (f : Frame) (b : Bool) : (shiftIn f b).toNat = (2 * f.toNat + b.toNat) % 2 ^ 40 := by
  have h := f.isLt
  unfold shiftIn
  rw [BitVec.toNat_append, BitVec.extractLsb'_toNat, BitVec.toNat_ofBool,
    ← Nat.shiftLeft_add_eq_or_of_lt (by cases b <;> decide), Nat.shiftLeft_eq]
  cases b <;> simp <;> omega

/-- The bits of a shifted frame (R130): the new bit at 0, every other one place higher. -/
theorem shiftIn_getLsbD (f : Frame) (b : Bool) (i : Nat) (h : i < 40) :
    (shiftIn f b).getLsbD i = if i = 0 then b else f.getLsbD (i - 1) := by
  unfold shiftIn
  rw [BitVec.getLsbD_append, BitVec.getLsbD_ofBool, BitVec.getLsbD_extractLsb']
  rcases i with _ | i
  · simp
  · have : i < 39 := by omega
    simp [this]

/-- The decoded bit is strict in the threshold (R130). -/
theorem decodedBit_eq_true {n : Nat} {c : Count} : decodedBit n c = true ↔ n < c.toNat := by
  simp [decodedBit]

/-! ### Byte fields of a frame put together from five bytes (R24) -/

/-- A concatenation read as a number (R12). -/
theorem append_toNat {m n : Nat} (x : BitVec m) (y : BitVec n) :
    (x ++ y).toNat = x.toNat * 2 ^ n + y.toNat := by
  rw [BitVec.toNat_append, ← Nat.shiftLeft_add_eq_or_of_lt y.isLt, Nat.shiftLeft_eq]

/-- The number a frame of five bytes is. -/
theorem frameOf_toNat (hi hd ti td ck : Byte) : (frameOf hi hd ti td ck).toNat =
    hi.toNat * 2 ^ 32 + hd.toNat * 2 ^ 24 + ti.toNat * 2 ^ 16 + td.toNat * 2 ^ 8 + ck.toNat := by
  unfold frameOf
  rw [append_toNat, append_toNat, append_toNat, append_toNat]
  omega

/-- Byte field `k` of a frame, given the number above and below it. -/
theorem byteField_eq {f : Frame} {b : Byte} {k high low : Nat}
    (hf : f.toNat = (high * 256 + b.toNat) * 2 ^ (8 * k) + low) (hl : low < 2 ^ (8 * k)) : byteField k f = b := by
  apply BitVec.eq_of_toNat_eq
  rw [byteField_toNat, hf, Nat.mul_comm, Nat.mul_add_div (Nat.two_pow_pos _), Nat.div_eq_of_lt hl]
  have := b.isLt
  omega

section Fields
variable (hi hd ti td ck : Byte)

@[simp] theorem hInt_frameOf : hInt (frameOf hi hd ti td ck) = hi :=
  byteField_eq (high := 0) (low := hd.toNat * 2 ^ 24 + ti.toNat * 2 ^ 16 + td.toNat * 2 ^ 8 + ck.toNat)
    (by rw [frameOf_toNat]; omega) (by omega)

@[simp] theorem hDec_frameOf : hDec (frameOf hi hd ti td ck) = hd :=
  byteField_eq (high := hi.toNat) (low := ti.toNat * 2 ^ 16 + td.toNat * 2 ^ 8 + ck.toNat)
    (by rw [frameOf_toNat]; omega) (by omega)

@[simp] theorem tInt_frameOf : tInt (frameOf hi hd ti td ck) = ti :=
  byteField_eq (high := hi.toNat * 2 ^ 8 + hd.toNat) (low := td.toNat * 2 ^ 8 + ck.toNat)
    (by rw [frameOf_toNat]; omega) (by omega)

@[simp] theorem tDec_frameOf : tDec (frameOf hi hd ti td ck) = td :=
  byteField_eq (high := hi.toNat * 2 ^ 16 + hd.toNat * 2 ^ 8 + ti.toNat) (low := ck.toNat)
    (by rw [frameOf_toNat]; omega) (by omega)

@[simp] theorem cks_frameOf : cks (frameOf hi hd ti td ck) = ck :=
  byteField_eq (high := hi.toNat * 2 ^ 24 + hd.toNat * 2 ^ 16 + ti.toNat * 2 ^ 8 + td.toNat) (low := 0)
    (by rw [frameOf_toNat]; omega) (by omega)

/-- The checksum test on a frame of five bytes (R141, R142). -/
theorem checksumOk_frameOf :
    checksumOk (frameOf hi hd ti td ck) = (hi + hd + ti + td == ck) := by
  simp [checksumOk, computedChecksum]

end Fields

/-! ### The checksum, the short-frame test and OUTCOME -/

/-- The checksum test as arithmetic on the frame's number (R140 to R142). -/
theorem checksumOk_eq_decide (f : Frame) : checksumOk f =
    decide ((f.toNat / 2 ^ 32 % 256 + f.toNat / 2 ^ 24 % 256 + f.toNat / 2 ^ 16 % 256 + f.toNat / 2 ^ 8 % 256) % 256
      = f.toNat % 256) := by
  have h : checksumOk f = decide ((computedChecksum f).toNat = (cks f).toNat) := by
    rw [Bool.eq_iff_iff]; simp [checksumOk, BitVec.toNat_inj]
  rw [h]
  simp [computedChecksum, hInt, hDec, tInt, tDec, cks, byteField_toNat, BitVec.toNat_add]
  omega

/-- The four bits of the value EVAL_DATA writes to OUTCOME (R147). -/
@[simp] theorem outcomeDone_outcomeWord (c t k : Bool) : outcomeDone (outcomeWord c t k) = true := by
  revert c t k; decide

@[simp] theorem outcomeCksumOk_outcomeWord (c t k : Bool) : outcomeCksumOk (outcomeWord c t k) = k := by
  revert c t k; decide

@[simp] theorem outcomeTimeout_outcomeWord (c t k : Bool) : outcomeTimeout (outcomeWord c t k) = t := by
  revert c t k; decide

@[simp] theorem outcomeCommitted_outcomeWord (c t k : Bool) : outcomeCommitted (outcomeWord c t k) = c := by
  revert c t k; decide

/-- The number EVAL_DATA writes to OUTCOME (R147). -/
theorem outcomeWord_toNat (c t k : Bool) :
    (outcomeWord c t k).toNat = 8 * c.toNat + 4 * t.toNat + 2 * k.toNat + 1 := by
  revert c t k; decide

/-! ### Responses -/

/-- GET_TEMP's response as a number (R160). -/
theorem tempWord_toNat (ti td : Byte) : (tempWord ti td).toNat = 256 * ti.toNat + td.toNat := by
  unfold tempWord
  rw [append_toNat]
  omega

/-- GET_STATUS's response as a number (R162). -/
theorem statusWord_toNat (st : ProtocolState) (o : BitVec 4) :
    (statusWord st o).toNat = 16 * st.code.toNat + o.toNat := by
  unfold statusWord
  rw [append_toNat, append_toNat]
  simp
  omega

/-- The codes of STATE lose nothing (R21). -/
@[simp] theorem ofCode_code (st : ProtocolState) : ProtocolState.ofCode st.code = st := by
  cases st <;> rfl

theorem code_injective {a b : ProtocolState} (h : a.code = b.code) : a = b := by
  rw [← ofCode_code a, h, ofCode_code]

end Sys2Proof.Machine
end

