-- ==== Sys2Proof/Laws/State.lean ====
section
/-! SUPPORT. One lemma per field of State and per register write of Machine/Ops.lean. -/

namespace Sys2Proof.Machine

variable (s : State)

/-! ### writeState -/

@[simp] theorem State.writeState_params (v : ProtocolState) : (s.writeState v).params = s.params := rfl
@[simp] theorem State.writeState_state (v : ProtocolState) : (s.writeState v).state = v := rfl
@[simp] theorem State.writeState_bitcnt (v : ProtocolState) : (s.writeState v).bitcnt = s.bitcnt := rfl
@[simp] theorem State.writeState_frame (v : ProtocolState) : (s.writeState v).frame = s.frame := rfl
@[simp] theorem State.writeState_snap (v : ProtocolState) : (s.writeState v).snap = s.snap := rfl
@[simp] theorem State.writeState_storedTInt (v : ProtocolState) : (s.writeState v).storedTInt = s.storedTInt := rfl
@[simp] theorem State.writeState_storedTDec (v : ProtocolState) : (s.writeState v).storedTDec = s.storedTDec := rfl
@[simp] theorem State.writeState_storedHInt (v : ProtocolState) : (s.writeState v).storedHInt = s.storedHInt := rfl
@[simp] theorem State.writeState_outcome (v : ProtocolState) : (s.writeState v).outcome = s.outcome := rfl
@[simp] theorem State.writeState_pinMode (v : ProtocolState) : (s.writeState v).pinMode = s.pinMode := rfl
@[simp] theorem State.writeState_pinLevel (v : ProtocolState) : (s.writeState v).pinLevel = s.pinLevel := rfl
@[simp] theorem State.writeState_cnt (v : ProtocolState) : (s.writeState v).cnt = s.cnt := rfl
@[simp] theorem State.writeState_now (v : ProtocolState) : (s.writeState v).now = s.now := rfl
@[simp] theorem State.writeState_schedule (v : ProtocolState) : (s.writeState v).schedule = s.schedule := rfl
@[simp] theorem State.writeState_responses (v : ProtocolState) : (s.writeState v).responses = s.responses := rfl

/-! ### writeBitcnt -/

@[simp] theorem State.writeBitcnt_params (v : BitCount) : (s.writeBitcnt v).params = s.params := rfl
@[simp] theorem State.writeBitcnt_state (v : BitCount) : (s.writeBitcnt v).state = s.state := rfl
@[simp] theorem State.writeBitcnt_bitcnt (v : BitCount) : (s.writeBitcnt v).bitcnt = v := rfl
@[simp] theorem State.writeBitcnt_frame (v : BitCount) : (s.writeBitcnt v).frame = s.frame := rfl
@[simp] theorem State.writeBitcnt_snap (v : BitCount) : (s.writeBitcnt v).snap = s.snap := rfl
@[simp] theorem State.writeBitcnt_storedTInt (v : BitCount) : (s.writeBitcnt v).storedTInt = s.storedTInt := rfl
@[simp] theorem State.writeBitcnt_storedTDec (v : BitCount) : (s.writeBitcnt v).storedTDec = s.storedTDec := rfl
@[simp] theorem State.writeBitcnt_storedHInt (v : BitCount) : (s.writeBitcnt v).storedHInt = s.storedHInt := rfl
@[simp] theorem State.writeBitcnt_outcome (v : BitCount) : (s.writeBitcnt v).outcome = s.outcome := rfl
@[simp] theorem State.writeBitcnt_pinMode (v : BitCount) : (s.writeBitcnt v).pinMode = s.pinMode := rfl
@[simp] theorem State.writeBitcnt_pinLevel (v : BitCount) : (s.writeBitcnt v).pinLevel = s.pinLevel := rfl
@[simp] theorem State.writeBitcnt_cnt (v : BitCount) : (s.writeBitcnt v).cnt = s.cnt := rfl
@[simp] theorem State.writeBitcnt_now (v : BitCount) : (s.writeBitcnt v).now = s.now := rfl
@[simp] theorem State.writeBitcnt_schedule (v : BitCount) : (s.writeBitcnt v).schedule = s.schedule := rfl
@[simp] theorem State.writeBitcnt_responses (v : BitCount) : (s.writeBitcnt v).responses = s.responses := rfl

/-! ### writeFrame -/

@[simp] theorem State.writeFrame_params (v : Frame) : (s.writeFrame v).params = s.params := rfl
@[simp] theorem State.writeFrame_state (v : Frame) : (s.writeFrame v).state = s.state := rfl
@[simp] theorem State.writeFrame_bitcnt (v : Frame) : (s.writeFrame v).bitcnt = s.bitcnt := rfl
@[simp] theorem State.writeFrame_frame (v : Frame) : (s.writeFrame v).frame = v := rfl
@[simp] theorem State.writeFrame_snap (v : Frame) : (s.writeFrame v).snap = s.snap := rfl
@[simp] theorem State.writeFrame_storedTInt (v : Frame) : (s.writeFrame v).storedTInt = s.storedTInt := rfl
@[simp] theorem State.writeFrame_storedTDec (v : Frame) : (s.writeFrame v).storedTDec = s.storedTDec := rfl
@[simp] theorem State.writeFrame_storedHInt (v : Frame) : (s.writeFrame v).storedHInt = s.storedHInt := rfl
@[simp] theorem State.writeFrame_outcome (v : Frame) : (s.writeFrame v).outcome = s.outcome := rfl
@[simp] theorem State.writeFrame_pinMode (v : Frame) : (s.writeFrame v).pinMode = s.pinMode := rfl
@[simp] theorem State.writeFrame_pinLevel (v : Frame) : (s.writeFrame v).pinLevel = s.pinLevel := rfl
@[simp] theorem State.writeFrame_cnt (v : Frame) : (s.writeFrame v).cnt = s.cnt := rfl
@[simp] theorem State.writeFrame_now (v : Frame) : (s.writeFrame v).now = s.now := rfl
@[simp] theorem State.writeFrame_schedule (v : Frame) : (s.writeFrame v).schedule = s.schedule := rfl
@[simp] theorem State.writeFrame_responses (v : Frame) : (s.writeFrame v).responses = s.responses := rfl

/-! ### writeSnap -/

@[simp] theorem State.writeSnap_params (v : TimeValue) : (s.writeSnap v).params = s.params := rfl
@[simp] theorem State.writeSnap_state (v : TimeValue) : (s.writeSnap v).state = s.state := rfl
@[simp] theorem State.writeSnap_bitcnt (v : TimeValue) : (s.writeSnap v).bitcnt = s.bitcnt := rfl
@[simp] theorem State.writeSnap_frame (v : TimeValue) : (s.writeSnap v).frame = s.frame := rfl
@[simp] theorem State.writeSnap_snap (v : TimeValue) : (s.writeSnap v).snap = v := rfl
@[simp] theorem State.writeSnap_storedTInt (v : TimeValue) : (s.writeSnap v).storedTInt = s.storedTInt := rfl
@[simp] theorem State.writeSnap_storedTDec (v : TimeValue) : (s.writeSnap v).storedTDec = s.storedTDec := rfl
@[simp] theorem State.writeSnap_storedHInt (v : TimeValue) : (s.writeSnap v).storedHInt = s.storedHInt := rfl
@[simp] theorem State.writeSnap_outcome (v : TimeValue) : (s.writeSnap v).outcome = s.outcome := rfl
@[simp] theorem State.writeSnap_pinMode (v : TimeValue) : (s.writeSnap v).pinMode = s.pinMode := rfl
@[simp] theorem State.writeSnap_pinLevel (v : TimeValue) : (s.writeSnap v).pinLevel = s.pinLevel := rfl
@[simp] theorem State.writeSnap_cnt (v : TimeValue) : (s.writeSnap v).cnt = s.cnt := rfl
@[simp] theorem State.writeSnap_now (v : TimeValue) : (s.writeSnap v).now = s.now := rfl
@[simp] theorem State.writeSnap_schedule (v : TimeValue) : (s.writeSnap v).schedule = s.schedule := rfl
@[simp] theorem State.writeSnap_responses (v : TimeValue) : (s.writeSnap v).responses = s.responses := rfl

/-! ### writeStored -/

@[simp] theorem State.writeStored_params (ti td hi : Byte) : (s.writeStored ti td hi).params = s.params := rfl
@[simp] theorem State.writeStored_state (ti td hi : Byte) : (s.writeStored ti td hi).state = s.state := rfl
@[simp] theorem State.writeStored_bitcnt (ti td hi : Byte) : (s.writeStored ti td hi).bitcnt = s.bitcnt := rfl
@[simp] theorem State.writeStored_frame (ti td hi : Byte) : (s.writeStored ti td hi).frame = s.frame := rfl
@[simp] theorem State.writeStored_snap (ti td hi : Byte) : (s.writeStored ti td hi).snap = s.snap := rfl
@[simp] theorem State.writeStored_storedTInt (ti td hi : Byte) : (s.writeStored ti td hi).storedTInt = ti := rfl
@[simp] theorem State.writeStored_storedTDec (ti td hi : Byte) : (s.writeStored ti td hi).storedTDec = td := rfl
@[simp] theorem State.writeStored_storedHInt (ti td hi : Byte) : (s.writeStored ti td hi).storedHInt = hi := rfl
@[simp] theorem State.writeStored_outcome (ti td hi : Byte) : (s.writeStored ti td hi).outcome = s.outcome := rfl
@[simp] theorem State.writeStored_pinMode (ti td hi : Byte) : (s.writeStored ti td hi).pinMode = s.pinMode := rfl
@[simp] theorem State.writeStored_pinLevel (ti td hi : Byte) : (s.writeStored ti td hi).pinLevel = s.pinLevel := rfl
@[simp] theorem State.writeStored_cnt (ti td hi : Byte) : (s.writeStored ti td hi).cnt = s.cnt := rfl
@[simp] theorem State.writeStored_now (ti td hi : Byte) : (s.writeStored ti td hi).now = s.now := rfl
@[simp] theorem State.writeStored_schedule (ti td hi : Byte) : (s.writeStored ti td hi).schedule = s.schedule := rfl
@[simp] theorem State.writeStored_responses (ti td hi : Byte) : (s.writeStored ti td hi).responses = s.responses := rfl

/-! ### writeOutcome -/

@[simp] theorem State.writeOutcome_params (v : BitVec 4) : (s.writeOutcome v).params = s.params := rfl
@[simp] theorem State.writeOutcome_state (v : BitVec 4) : (s.writeOutcome v).state = s.state := rfl
@[simp] theorem State.writeOutcome_bitcnt (v : BitVec 4) : (s.writeOutcome v).bitcnt = s.bitcnt := rfl
@[simp] theorem State.writeOutcome_frame (v : BitVec 4) : (s.writeOutcome v).frame = s.frame := rfl
@[simp] theorem State.writeOutcome_snap (v : BitVec 4) : (s.writeOutcome v).snap = s.snap := rfl
@[simp] theorem State.writeOutcome_storedTInt (v : BitVec 4) : (s.writeOutcome v).storedTInt = s.storedTInt := rfl
@[simp] theorem State.writeOutcome_storedTDec (v : BitVec 4) : (s.writeOutcome v).storedTDec = s.storedTDec := rfl
@[simp] theorem State.writeOutcome_storedHInt (v : BitVec 4) : (s.writeOutcome v).storedHInt = s.storedHInt := rfl
@[simp] theorem State.writeOutcome_outcome (v : BitVec 4) : (s.writeOutcome v).outcome = v := rfl
@[simp] theorem State.writeOutcome_pinMode (v : BitVec 4) : (s.writeOutcome v).pinMode = s.pinMode := rfl
@[simp] theorem State.writeOutcome_pinLevel (v : BitVec 4) : (s.writeOutcome v).pinLevel = s.pinLevel := rfl
@[simp] theorem State.writeOutcome_cnt (v : BitVec 4) : (s.writeOutcome v).cnt = s.cnt := rfl
@[simp] theorem State.writeOutcome_now (v : BitVec 4) : (s.writeOutcome v).now = s.now := rfl
@[simp] theorem State.writeOutcome_schedule (v : BitVec 4) : (s.writeOutcome v).schedule = s.schedule := rfl
@[simp] theorem State.writeOutcome_responses (v : BitVec 4) : (s.writeOutcome v).responses = s.responses := rfl

/-! ### portSetMode -/

@[simp] theorem State.portSetMode_params (m : PinMode) : (s.portSetMode m).params = s.params := rfl
@[simp] theorem State.portSetMode_state (m : PinMode) : (s.portSetMode m).state = s.state := rfl
@[simp] theorem State.portSetMode_bitcnt (m : PinMode) : (s.portSetMode m).bitcnt = s.bitcnt := rfl
@[simp] theorem State.portSetMode_frame (m : PinMode) : (s.portSetMode m).frame = s.frame := rfl
@[simp] theorem State.portSetMode_snap (m : PinMode) : (s.portSetMode m).snap = s.snap := rfl
@[simp] theorem State.portSetMode_storedTInt (m : PinMode) : (s.portSetMode m).storedTInt = s.storedTInt := rfl
@[simp] theorem State.portSetMode_storedTDec (m : PinMode) : (s.portSetMode m).storedTDec = s.storedTDec := rfl
@[simp] theorem State.portSetMode_storedHInt (m : PinMode) : (s.portSetMode m).storedHInt = s.storedHInt := rfl
@[simp] theorem State.portSetMode_outcome (m : PinMode) : (s.portSetMode m).outcome = s.outcome := rfl
@[simp] theorem State.portSetMode_pinMode (m : PinMode) : (s.portSetMode m).pinMode = m := rfl
@[simp] theorem State.portSetMode_pinLevel (m : PinMode) : (s.portSetMode m).pinLevel = s.pinLevel := rfl
@[simp] theorem State.portSetMode_cnt (m : PinMode) : (s.portSetMode m).cnt = s.cnt := rfl
@[simp] theorem State.portSetMode_now (m : PinMode) : (s.portSetMode m).now = s.now := rfl
@[simp] theorem State.portSetMode_schedule (m : PinMode) : (s.portSetMode m).schedule = s.schedule := rfl
@[simp] theorem State.portSetMode_responses (m : PinMode) : (s.portSetMode m).responses = s.responses := rfl

/-! ### portSetLevel -/

@[simp] theorem State.portSetLevel_params (l : PinLevel) : (s.portSetLevel l).params = s.params := rfl
@[simp] theorem State.portSetLevel_state (l : PinLevel) : (s.portSetLevel l).state = s.state := rfl
@[simp] theorem State.portSetLevel_bitcnt (l : PinLevel) : (s.portSetLevel l).bitcnt = s.bitcnt := rfl
@[simp] theorem State.portSetLevel_frame (l : PinLevel) : (s.portSetLevel l).frame = s.frame := rfl
@[simp] theorem State.portSetLevel_snap (l : PinLevel) : (s.portSetLevel l).snap = s.snap := rfl
@[simp] theorem State.portSetLevel_storedTInt (l : PinLevel) : (s.portSetLevel l).storedTInt = s.storedTInt := rfl
@[simp] theorem State.portSetLevel_storedTDec (l : PinLevel) : (s.portSetLevel l).storedTDec = s.storedTDec := rfl
@[simp] theorem State.portSetLevel_storedHInt (l : PinLevel) : (s.portSetLevel l).storedHInt = s.storedHInt := rfl
@[simp] theorem State.portSetLevel_outcome (l : PinLevel) : (s.portSetLevel l).outcome = s.outcome := rfl
@[simp] theorem State.portSetLevel_pinMode (l : PinLevel) : (s.portSetLevel l).pinMode = s.pinMode := rfl
@[simp] theorem State.portSetLevel_pinLevel (l : PinLevel) : (s.portSetLevel l).pinLevel = l := rfl
@[simp] theorem State.portSetLevel_cnt (l : PinLevel) : (s.portSetLevel l).cnt = s.cnt := rfl
@[simp] theorem State.portSetLevel_now (l : PinLevel) : (s.portSetLevel l).now = s.now := rfl
@[simp] theorem State.portSetLevel_schedule (l : PinLevel) : (s.portSetLevel l).schedule = s.schedule := rfl
@[simp] theorem State.portSetLevel_responses (l : PinLevel) : (s.portSetLevel l).responses = s.responses := rfl

/-! ### portResetCounter -/

@[simp] theorem State.portResetCounter_params (v : Count) : (s.portResetCounter v).params = s.params := rfl
@[simp] theorem State.portResetCounter_state (v : Count) : (s.portResetCounter v).state = s.state := rfl
@[simp] theorem State.portResetCounter_bitcnt (v : Count) : (s.portResetCounter v).bitcnt = s.bitcnt := rfl
@[simp] theorem State.portResetCounter_frame (v : Count) : (s.portResetCounter v).frame = s.frame := rfl
@[simp] theorem State.portResetCounter_snap (v : Count) : (s.portResetCounter v).snap = s.snap := rfl
@[simp] theorem State.portResetCounter_storedTInt (v : Count) : (s.portResetCounter v).storedTInt = s.storedTInt := rfl
@[simp] theorem State.portResetCounter_storedTDec (v : Count) : (s.portResetCounter v).storedTDec = s.storedTDec := rfl
@[simp] theorem State.portResetCounter_storedHInt (v : Count) : (s.portResetCounter v).storedHInt = s.storedHInt := rfl
@[simp] theorem State.portResetCounter_outcome (v : Count) : (s.portResetCounter v).outcome = s.outcome := rfl
@[simp] theorem State.portResetCounter_pinMode (v : Count) : (s.portResetCounter v).pinMode = s.pinMode := rfl
@[simp] theorem State.portResetCounter_pinLevel (v : Count) : (s.portResetCounter v).pinLevel = s.pinLevel := rfl
@[simp] theorem State.portResetCounter_cnt (v : Count) : (s.portResetCounter v).cnt = v := rfl
@[simp] theorem State.portResetCounter_now (v : Count) : (s.portResetCounter v).now = s.now := rfl
@[simp] theorem State.portResetCounter_schedule (v : Count) : (s.portResetCounter v).schedule = s.schedule := rfl
@[simp] theorem State.portResetCounter_responses (v : Count) : (s.portResetCounter v).responses = s.responses := rfl

/-! ### writeNow -/

@[simp] theorem State.writeNow_params (v : TimeValue) : (s.writeNow v).params = s.params := rfl
@[simp] theorem State.writeNow_state (v : TimeValue) : (s.writeNow v).state = s.state := rfl
@[simp] theorem State.writeNow_bitcnt (v : TimeValue) : (s.writeNow v).bitcnt = s.bitcnt := rfl
@[simp] theorem State.writeNow_frame (v : TimeValue) : (s.writeNow v).frame = s.frame := rfl
@[simp] theorem State.writeNow_snap (v : TimeValue) : (s.writeNow v).snap = s.snap := rfl
@[simp] theorem State.writeNow_storedTInt (v : TimeValue) : (s.writeNow v).storedTInt = s.storedTInt := rfl
@[simp] theorem State.writeNow_storedTDec (v : TimeValue) : (s.writeNow v).storedTDec = s.storedTDec := rfl
@[simp] theorem State.writeNow_storedHInt (v : TimeValue) : (s.writeNow v).storedHInt = s.storedHInt := rfl
@[simp] theorem State.writeNow_outcome (v : TimeValue) : (s.writeNow v).outcome = s.outcome := rfl
@[simp] theorem State.writeNow_pinMode (v : TimeValue) : (s.writeNow v).pinMode = s.pinMode := rfl
@[simp] theorem State.writeNow_pinLevel (v : TimeValue) : (s.writeNow v).pinLevel = s.pinLevel := rfl
@[simp] theorem State.writeNow_cnt (v : TimeValue) : (s.writeNow v).cnt = s.cnt := rfl
@[simp] theorem State.writeNow_now (v : TimeValue) : (s.writeNow v).now = v := rfl
@[simp] theorem State.writeNow_schedule (v : TimeValue) : (s.writeNow v).schedule = s.schedule := rfl
@[simp] theorem State.writeNow_responses (v : TimeValue) : (s.writeNow v).responses = s.responses := rfl

/-! ### respond -/

@[simp] theorem State.respond_params (r : Response) : (s.respond r).params = s.params := rfl
@[simp] theorem State.respond_state (r : Response) : (s.respond r).state = s.state := rfl
@[simp] theorem State.respond_bitcnt (r : Response) : (s.respond r).bitcnt = s.bitcnt := rfl
@[simp] theorem State.respond_frame (r : Response) : (s.respond r).frame = s.frame := rfl
@[simp] theorem State.respond_snap (r : Response) : (s.respond r).snap = s.snap := rfl
@[simp] theorem State.respond_storedTInt (r : Response) : (s.respond r).storedTInt = s.storedTInt := rfl
@[simp] theorem State.respond_storedTDec (r : Response) : (s.respond r).storedTDec = s.storedTDec := rfl
@[simp] theorem State.respond_storedHInt (r : Response) : (s.respond r).storedHInt = s.storedHInt := rfl
@[simp] theorem State.respond_outcome (r : Response) : (s.respond r).outcome = s.outcome := rfl
@[simp] theorem State.respond_pinMode (r : Response) : (s.respond r).pinMode = s.pinMode := rfl
@[simp] theorem State.respond_pinLevel (r : Response) : (s.respond r).pinLevel = s.pinLevel := rfl
@[simp] theorem State.respond_cnt (r : Response) : (s.respond r).cnt = s.cnt := rfl
@[simp] theorem State.respond_now (r : Response) : (s.respond r).now = s.now := rfl
@[simp] theorem State.respond_schedule (r : Response) : (s.respond r).schedule = s.schedule := rfl
@[simp] theorem State.respond_responses (r : Response) : (s.respond r).responses = r :: s.responses := rfl

/-! ### withSchedule -/

@[simp] theorem State.withSchedule_params (es : List Event) : (s.withSchedule es).params = s.params := rfl
@[simp] theorem State.withSchedule_state (es : List Event) : (s.withSchedule es).state = s.state := rfl
@[simp] theorem State.withSchedule_bitcnt (es : List Event) : (s.withSchedule es).bitcnt = s.bitcnt := rfl
@[simp] theorem State.withSchedule_frame (es : List Event) : (s.withSchedule es).frame = s.frame := rfl
@[simp] theorem State.withSchedule_snap (es : List Event) : (s.withSchedule es).snap = s.snap := rfl
@[simp] theorem State.withSchedule_storedTInt (es : List Event) : (s.withSchedule es).storedTInt = s.storedTInt := rfl
@[simp] theorem State.withSchedule_storedTDec (es : List Event) : (s.withSchedule es).storedTDec = s.storedTDec := rfl
@[simp] theorem State.withSchedule_storedHInt (es : List Event) : (s.withSchedule es).storedHInt = s.storedHInt := rfl
@[simp] theorem State.withSchedule_outcome (es : List Event) : (s.withSchedule es).outcome = s.outcome := rfl
@[simp] theorem State.withSchedule_pinMode (es : List Event) : (s.withSchedule es).pinMode = s.pinMode := rfl
@[simp] theorem State.withSchedule_pinLevel (es : List Event) : (s.withSchedule es).pinLevel = s.pinLevel := rfl
@[simp] theorem State.withSchedule_cnt (es : List Event) : (s.withSchedule es).cnt = s.cnt := rfl
@[simp] theorem State.withSchedule_now (es : List Event) : (s.withSchedule es).now = s.now := rfl
@[simp] theorem State.withSchedule_schedule (es : List Event) : (s.withSchedule es).schedule = es := rfl
@[simp] theorem State.withSchedule_responses (es : List Event) : (s.withSchedule es).responses = s.responses := rfl

/-! ### Power-on -/

@[simp] theorem State.powerOn_params (p : Params) (n : TimeValue) (c : Count) : (State.powerOn p n c).params = p := rfl
@[simp] theorem State.powerOn_state (p : Params) (n : TimeValue) (c : Count) : (State.powerOn p n c).state = .init := rfl
@[simp] theorem State.powerOn_bitcnt (p : Params) (n : TimeValue) (c : Count) : (State.powerOn p n c).bitcnt = 0 := rfl
@[simp] theorem State.powerOn_frame (p : Params) (n : TimeValue) (c : Count) : (State.powerOn p n c).frame = 0 := rfl
@[simp] theorem State.powerOn_snap (p : Params) (n : TimeValue) (c : Count) : (State.powerOn p n c).snap = 0 := rfl
@[simp] theorem State.powerOn_storedTInt (p : Params) (n : TimeValue) (c : Count) : (State.powerOn p n c).storedTInt = 0 := rfl
@[simp] theorem State.powerOn_storedTDec (p : Params) (n : TimeValue) (c : Count) : (State.powerOn p n c).storedTDec = 0 := rfl
@[simp] theorem State.powerOn_storedHInt (p : Params) (n : TimeValue) (c : Count) : (State.powerOn p n c).storedHInt = 0 := rfl
@[simp] theorem State.powerOn_outcome (p : Params) (n : TimeValue) (c : Count) : (State.powerOn p n c).outcome = 0 := rfl
@[simp] theorem State.powerOn_pinMode (p : Params) (n : TimeValue) (c : Count) : (State.powerOn p n c).pinMode = .unconfigured := rfl
@[simp] theorem State.powerOn_pinLevel (p : Params) (n : TimeValue) (c : Count) : (State.powerOn p n c).pinLevel = .unknown := rfl
@[simp] theorem State.powerOn_cnt (p : Params) (n : TimeValue) (c : Count) : (State.powerOn p n c).cnt = c := rfl
@[simp] theorem State.powerOn_now (p : Params) (n : TimeValue) (c : Count) : (State.powerOn p n c).now = n := rfl
@[simp] theorem State.powerOn_schedule (p : Params) (n : TimeValue) (c : Count) : (State.powerOn p n c).schedule = [] := rfl
@[simp] theorem State.powerOn_responses (p : Params) (n : TimeValue) (c : Count) : (State.powerOn p n c).responses = [] := rfl

@[simp] theorem State.powerCycled_params (n : TimeValue) (c : Count) : (s.powerCycled n c).params = s.params := rfl
@[simp] theorem State.powerCycled_state (n : TimeValue) (c : Count) : (s.powerCycled n c).state = .init := rfl
@[simp] theorem State.powerCycled_bitcnt (n : TimeValue) (c : Count) : (s.powerCycled n c).bitcnt = 0 := rfl
@[simp] theorem State.powerCycled_frame (n : TimeValue) (c : Count) : (s.powerCycled n c).frame = 0 := rfl
@[simp] theorem State.powerCycled_snap (n : TimeValue) (c : Count) : (s.powerCycled n c).snap = 0 := rfl
@[simp] theorem State.powerCycled_storedTInt (n : TimeValue) (c : Count) : (s.powerCycled n c).storedTInt = 0 := rfl
@[simp] theorem State.powerCycled_storedTDec (n : TimeValue) (c : Count) : (s.powerCycled n c).storedTDec = 0 := rfl
@[simp] theorem State.powerCycled_storedHInt (n : TimeValue) (c : Count) : (s.powerCycled n c).storedHInt = 0 := rfl
@[simp] theorem State.powerCycled_outcome (n : TimeValue) (c : Count) : (s.powerCycled n c).outcome = 0 := rfl
@[simp] theorem State.powerCycled_pinMode (n : TimeValue) (c : Count) : (s.powerCycled n c).pinMode = .unconfigured := rfl
@[simp] theorem State.powerCycled_pinLevel (n : TimeValue) (c : Count) : (s.powerCycled n c).pinLevel = .unknown := rfl
@[simp] theorem State.powerCycled_cnt (n : TimeValue) (c : Count) : (s.powerCycled n c).cnt = c := rfl
@[simp] theorem State.powerCycled_now (n : TimeValue) (c : Count) : (s.powerCycled n c).now = n := rfl
@[simp] theorem State.powerCycled_schedule (n : TimeValue) (c : Count) : (s.powerCycled n c).schedule = s.schedule := rfl
@[simp] theorem State.powerCycled_responses (n : TimeValue) (c : Count) : (s.powerCycled n c).responses = s.responses := rfl

/-! ### Port reads -/

@[simp] theorem State.portNow_eq : s.portNow = s.now := rfl
@[simp] theorem State.portCounter_eq : s.portCounter = s.cnt := rfl

end Sys2Proof.Machine
end

