-- ==== Sys2Proof/Laws/Ops.lean ====
section
/-! SUPPORT. One lemma for each shared operation that says everything it does. -/

namespace Sys2Proof.Machine

variable (s : State)

/-- TIME's effect (R170). -/
theorem advanceNow_eq (k : Nat) : s.advanceNow k = { s with now := s.now + BitVec.ofNat TW k } := rfl

/-- TICK's effect (R171). -/
theorem advanceCounter_eq (k : Nat) : s.advanceCounter k = { s with cnt := s.cnt + BitVec.ofNat CW k } := rfl

/-- Elapsed time as a difference modulo 2^TW (R25). -/
theorem el_eq_mod : s.el = (s.now.toNat + 2 ^ TW - s.snap.toNat) % 2 ^ TW := elapsed_eq_mod _ _

/-- TIME adds to elapsed time modulo 2^TW (R205). -/
theorem el_advanceNow (k : Nat) : (s.advanceNow k).el = (s.el + k) % 2 ^ TW := elapsed_add _ _ _

/-- The dispatch condition (R173, R174). -/
theorem edgeDispatched_iff :
    s.edgeDispatched = true ↔ s.pinMode = .inputIrq ∨ s.params.spuriousEdges = true := by
  simp [State.edgeDispatched]

/-- What a commit decision does to StoredReading (R146). -/
theorem commitReading_eq (c : Bool) : s.commitReading c =
    { s with storedTInt := if c then tInt s.frame else s.storedTInt, storedTDec := if c then tDec s.frame else s.storedTDec, storedHInt := if c then hInt s.frame else s.storedHInt } := by
  cases c <;> rfl

/-- Evaluate as one record update (R148). -/
theorem evaluate_eq : s.evaluate =
    { s with storedTInt := if s.commits then tInt s.frame else s.storedTInt, storedTDec := if s.commits then tDec s.frame else s.storedTDec, storedHInt := if s.commits then hInt s.frame else s.storedHInt, outcome := outcomeWord s.commits s.short (checksumOk s.frame) } := by
  rw [State.evaluate, commitReading_eq]
  rfl

/-- EDGE's effect as one record update (R130). -/
theorem captureEdge_eq : captureEdge s =
    { s with frame := shiftIn s.frame (decodedBit s.params.bitThreshold s.cnt), bitcnt := s.bitcnt + 1, cnt := 0 } := rfl

end Sys2Proof.Machine
end

