-- ==== Sys2Proof/Laws/Step.lean ====
section
/-! SUPPORT. What one step can do, said once, and how runs are put together. -/

namespace Sys2Proof.Machine

/-! ### One agent step -/

/-- A step takes the next entry off the schedule and runs it (R58). -/
theorem step_cons {s : State} {e : Event} {rest : List Event} (h : s.schedule = e :: rest) :
    step s = runEvent e { s with schedule := rest } := by
  simp [step, nextAgentStep, h, State.withSchedule]

theorem step_nil {s : State} (h : s.schedule = []) : step s = .next s := by
  simp [step, nextAgentStep, h]

/-- Every operation answers a next state from every state (R11, R180: no operation raises an exception). -/
theorem exec_next (i : Instr) (s : State) : ∃ t, exec i s = .next t := by
  cases i <;> simp only [exec, execInitialise, execRequest, execPoll, execEdge, execGetTemp, execGetHum, execGetStatus]
  case request => cases s.state <;> exact ⟨_, rfl⟩
  case poll => cases s.state <;> exact ⟨_, rfl⟩
  all_goals exact ⟨_, rfl⟩

/-- Presenting the word of an operation runs it (R70). -/
theorem presentCommand_ok {w : CommandWord} {i : Instr} (h : decode w = .ok i) (s : State) :
    presentCommand w s = exec i s := by
  simp [presentCommand, h]

/-- Presenting a word that is not well formed is refused (R75). -/
theorem presentCommand_reserved {w : CommandWord} (h : CommandWord.wf w = false) (s : State) :
    presentCommand w s = .refused (.reservedWord w) := by
  simp [presentCommand, decode_of_not_wf w h]

/-- A falling edge is either one captured edge or nothing (R173). -/
theorem fallingEdge_eq (s : State) :
    fallingEdge s = .next (if s.edgeDispatched then captureEdge s else s) := by
  unfold fallingEdge
  split <;> rfl

/-- The inversion of a step of an agent: everything an event that answers a next state can have done (R10). -/
theorem runEvent_next {e : Event} {s t : State} (h : runEvent e s = .next t) :
    (∃ w i, e = .command w ∧ decode w = .ok i ∧ exec i s = .next t) ∨
    (∃ k, (e = .time k ∨ ∃ v, e = .now v ∧ k = (v - s.now).toNat) ∧ t = s.advanceNow k) ∨
    (∃ k, e = .tick k ∧ t = s.advanceCounter k) ∨
    (e = .fall ∧ t = if s.edgeDispatched then captureEdge s else s) ∨
    (∃ n c, e = .powerCycle n c ∧ t = s.powerCycled n c) := by
  cases e with
  | command w =>
    cases hd : decode w with
    | ok i => exact .inl ⟨w, i, rfl, hd, by simpa [runEvent, presentCommand, hd] using h⟩
    | error d => cases d; simp [runEvent, presentCommand, hd] at h
  | time k => injection h with h; exact .inr (.inl ⟨k, .inl rfl, h.symm⟩)
  | now v => injection h with h; exact .inr (.inl ⟨_, .inr ⟨v, rfl, rfl⟩, h.symm⟩)
  | tick k => injection h with h; exact .inr (.inr (.inl ⟨k, rfl, h.symm⟩))
  | fall =>
    rw [show runEvent .fall s = fallingEdge s from rfl, fallingEdge_eq] at h
    injection h with h
    exact .inr (.inr (.inr (.inl ⟨rfl, h.symm⟩)))
  | powerCycle n c => injection h with h; exact .inr (.inr (.inr (.inr ⟨n, c, rfl, h.symm⟩)))

/-- The inversion of a step: nothing was left to do, or the next entry ran in the state without it. -/
theorem step_next {s t : State} (h : step s = .next t) :
    (s.schedule = [] ∧ t = s) ∨
    ∃ e rest, s.schedule = e :: rest ∧ runEvent e { s with schedule := rest } = .next t := by
  cases hs : s.schedule with
  | nil => rw [step_nil hs] at h; injection h with h; exact .inl ⟨rfl, h.symm⟩
  | cons e rest => rw [step_cons hs] at h; exact .inr ⟨e, rest, rfl, h⟩

/-! ### Runs -/

@[simp] theorem dispatchedEvents_zero (s : State) : s.dispatchedEvents 0 = [] := rfl

@[simp] theorem dispatchedEvents_nil {s : State} (h : s.schedule = []) (n : Nat) : s.dispatchedEvents n = [] := by
  cases n <;> simp [State.dispatchedEvents, h]

/-- One step of a run adds its schedule entry, unless that is a falling edge that is not dispatched (R172, R173). -/
theorem dispatchedEvents_succ {s t : State} {e : Event} {rest : List Event} (hs : s.schedule = e :: rest)
    (h : step s = .next t) (n : Nat) :
    s.dispatchedEvents (n + 1) =
      if e = .fall ∧ s.edgeDispatched = false then t.dispatchedEvents n else e :: t.dispatchedEvents n := by
  simp only [step, nextAgentStep, hs] at h
  simp only [State.dispatchedEvents, hs, h]

@[simp] theorem runSteps_zero (s : State) : runSteps 0 s = .next s := rfl

theorem runSteps_succ_of_next {s t : State} (h : step s = .next t) (n : Nat) :
    runSteps (n + 1) s = runSteps n t := by
  simp [runSteps, h]

/-- Two runs, one after the other. -/
theorem runSteps_add {m n : Nat} {s t : State} (h : runSteps m s = .next t) :
    runSteps (m + n) s = runSteps n t := by
  induction m generalizing s with
  | zero => simp at h; simp [h]
  | succ m ih =>
    rw [Nat.succ_add]
    cases hs : step s with
    | next u => rw [runSteps_succ_of_next hs] at h ⊢; exact ih h
    | fault r => cases r
    | refused r => simp [runSteps, hs] at h

/-- A relation that holds of a state and itself, is kept along a run, and holds of each step, holds along the run. -/
theorem runSteps_induction {P : State → Prop} (hstep : ∀ s t, P s → step s = .next t → P t) {n : Nat} {s t : State}
    (h0 : P s) (h : runSteps n s = .next t) : P t := by
  induction n generalizing s with
  | zero => simp at h; exact h ▸ h0
  | succ n ih =>
    cases hs : step s with
    | next u => rw [runSteps_succ_of_next hs] at h; exact ih (hstep s u h0 hs) h
    | fault r => cases r
    | refused r => simp [runSteps, hs] at h

/-- The host's run of the machine is this run. -/
theorem core_run_eq (n : Nat) (s : State) : Host.Core.run core n s = runSteps n s := by
  induction n generalizing s with
  | zero => rfl
  | succ n ih =>
    have hc : ∀ o, step s = o → core.step s = o := fun _ h => h
    cases hs : step s with
    | next u => simp only [runSteps, Host.Core.run, hs, hc _ hs]; exact ih u
    | fault r => cases r
    | refused r => simp only [runSteps, Host.Core.run, hs, hc _ hs]; rfl

end Sys2Proof.Machine
end

