-- ==== Sys2Proof/Laws/Exec.lean ====
section
/-! SUPPORT. The inversion of `exec`: everything an operation that answers a next state can have done, guards included.
Proofs about every operation go through this and never unfold a meaning. -/

namespace Sys2Proof.Machine

/-- One case for each operation, and for POLL one for each outcome of each state (R100 to R110, R130, R160 to R162). -/
theorem exec_next_cases {i : Instr} {s t : State} (h : exec i s = .next t) :
    (i = .initialise ∧ t = { s with pinMode := .output, state := .init }) ∨
    (i = .request ∧ s.state = .idle ∧ t = { s with state := .startcommInit }) ∨
    (i = .request ∧ s.state ≠ .idle ∧ t = s) ∨
    (i = .poll ∧ s.state = .idle ∧ t = s) ∨
    (i = .poll ∧ s.state = .init ∧ t = { s with pinMode := .output, pinLevel := .high, state := .idle }) ∨
    (i = .poll ∧ s.state = .startcommInit ∧
      t = { s with bitcnt := 0, pinLevel := .low, snap := s.now, state := .startcommDelay }) ∨
    (i = .poll ∧ s.state = .startcommDelay ∧ s.params.tStart ≤ s.el ∧
      t = { s with pinLevel := .high, frame := 0, pinMode := .inputIrq, cnt := 0, state := .startcommEnd }) ∨
    (i = .poll ∧ s.state = .startcommDelay ∧ s.el < s.params.tStart ∧ t = s) ∨
    (i = .poll ∧ s.state = .startcommEnd ∧ t = { s with snap := s.now, state := .rxData }) ∨
    (i = .poll ∧ s.state = .rxData ∧ (s.params.tRx ≤ s.el ∨ s.params.nBits ≤ s.bitcnt.toNat) ∧
      t = { s with state := .evalData }) ∨
    (i = .poll ∧ s.state = .rxData ∧ ¬ (s.params.tRx ≤ s.el ∨ s.params.nBits ≤ s.bitcnt.toNat) ∧ t = s) ∨
    (i = .poll ∧ s.state = .evalData ∧ t = { s.evaluate with state := .init }) ∨
    (i = .poll ∧ s.state = .unrecognized ∧ t = { s with state := .init }) ∨
    (i = .edge ∧ t = captureEdge s) ∨
    (∃ r, (i = .getTemp ∨ i = .getHum ∨ i = .getStatus) ∧ t = { s with responses := r :: s.responses }) := by
  cases i
  case initialise => cases h; simp [State.writeState, State.portSetMode]
  case request =>
    cases hs : s.state <;> simp only [exec, execRequest, hs] at h <;> injection h with h <;> subst h <;>
      simp [State.writeState]
  case edge => cases h; simp
  case getTemp => cases h; simp [State.respond]
  case getHum => cases h; simp [State.respond]
  case getStatus => cases h; simp [State.respond]
  case poll =>
    cases hs : s.state <;> simp only [exec, execPoll, hs] at h <;> injection h with h <;> subst h <;> simp
    case init => rfl
    case idle => rfl
    case startcommInit => rfl
    case startcommDelay =>
      by_cases hc : s.params.tStart ≤ s.el
      · exact .inl ⟨hc, by simp only [pollStartcommDelay, if_pos hc]; rfl⟩
      · exact .inr ⟨by omega, by simp only [pollStartcommDelay, if_neg hc]⟩
    case startcommEnd => rfl
    case rxData =>
      by_cases hc : s.params.tRx ≤ s.el ∨ s.params.nBits ≤ s.bitcnt.toNat
      · exact .inl ⟨hc, by simp only [pollRxData, if_pos hc]; rfl⟩
      · exact .inr ⟨by omega, by simp only [pollRxData, if_neg hc]⟩
    case evalData => rfl
    case unrecognized => rfl

/-- One environment step always runs and touches only the capture registers and NOW (R33, columns EDGE and ENV). -/
theorem runEvent_environment {e : Event} (s : State) (he : e.isEnvironment = true) : ∃ t, runEvent e s = .next t ∧
    t = { s with frame := t.frame, bitcnt := t.bitcnt, cnt := t.cnt, now := t.now } := by
  cases e with
  | command w => cases he
  | time k => exact ⟨_, rfl, rfl⟩
  | now k => exact ⟨_, rfl, rfl⟩
  | tick k => exact ⟨_, rfl, rfl⟩
  | fall => exact ⟨_, fallingEdge_eq s, by split <;> rfl⟩
  | powerCycle n c => cases he

end Sys2Proof.Machine
end

