-- ==== Sys2Proof/Laws/PerInstr.lean ====
section
/-! SUPPORT. The families of statements made per instruction (LAWS.json). -/

namespace Sys2Proof.Laws.EncodingRoundTrip

/-- The word of a well-formed operation has `z = 0b0000`, and its field `op` is the operation's code (R70, R72). -/
def Statement (i : Instr) : Prop :=
  i.wf = true → (encode i).extractLsb' 4 4 = 0 ∧ (encode i).extractLsb' 0 4 = opField i ∧
    decodeTableWord 8 (encode i).toNat = some i

theorem initialise : Statement .initialise := by unfold Statement; decide
theorem request : Statement .request := by unfold Statement; decide
theorem poll : Statement .poll := by unfold Statement; decide
theorem edge : Statement .edge := by unfold Statement; decide
theorem getTemp : Statement .getTemp := by unfold Statement; decide
theorem getHum : Statement .getHum := by unfold Statement; decide
theorem getStatus : Statement .getStatus := by unfold Statement; decide

end Sys2Proof.Laws.EncodingRoundTrip
end

