-- ==== Sys2Proof/Tests/Slice0.lean ====
section
/-! SUPPORT. Smoke tests, one-step tests whose expected results are hand-written in spec/95_test_vectors.md (V…, E…) or
in the rules' examples, and a witness for the hypotheses of each statement that has any. -/

namespace Sys2Proof.Tests

open Sys2Proof Sys2Proof.Machine

/-- The power-on state at the default parameters, with STATE set. -/
def at_ (st : ProtocolState) : State := State.reset.writeState st

/-- The outcome is a next state with the property. -/
def nextHas (o : Host.Outcome State Fault Refusal) (p : State → Bool) : Bool :=
  match o with
  | .next t => p t
  | .fault _ => false
  | .refused _ => false

/-- The outcome is the refusal. -/
def isRefused (o : Host.Outcome State Fault Refusal) (r : Refusal) : Bool :=
  match o with
  | .next _ => false
  | .fault _ => false
  | .refused q => q == r

/-! ### Well-formedness: each check refuses something -/

theorem test_word_with_z_not_zero_is_ill_formed : CommandWord.wf 0x13 = false := by decide
theorem test_word_with_op_zero_is_ill_formed : CommandWord.wf 0x00 = false := by decide
theorem test_word_with_op_above_seven_is_ill_formed : CommandWord.wf 0x08 = false := by decide
theorem test_params_nBits_too_wide : Params.wf { nBits := 256 } = false := by decide
theorem test_params_threshold_too_wide : Params.wf { bitThreshold := 65536 } = false := by decide
theorem test_params_tStart_too_wide : Params.wf { tStart := 4294967296 } = false := by decide
theorem test_params_tRx_too_wide : Params.wf { tRx := 4294967296 } = false := by decide
theorem test_default_params_are_well_formed : Params.wf .default = true := by decide
theorem test_widths_hold_the_defaults : 6 ≤ BW ∧ 7 ≤ CW := by decide

/-! ### Decoding: the words of R72 written out bit by bit (z = 0000, then op) -/

theorem test_decode_initialise : decode 0b00000001 = .ok .initialise := by rfl
theorem test_decode_request : decode 0b00000010 = .ok .request := by rfl
theorem test_decode_poll : decode 0b00000011 = .ok .poll := by rfl
theorem test_decode_edge : decode 0b00000100 = .ok .edge := by rfl
theorem test_decode_getTemp : decode 0b00000101 = .ok .getTemp := by rfl
theorem test_decode_getHum : decode 0b00000110 = .ok .getHum := by rfl
theorem test_decode_getStatus : decode 0b00000111 = .ok .getStatus := by rfl

/-- V62 to V66: reserved words. -/
theorem test_reserved_words_are_refused : ∀ w ∈ ([0x00, 0x08, 0x0F, 0x13, 0xFF] : List CommandWord),
    isRefused (step (State.reset.presentNext w)) (.reservedWord w) = true := by decide

/-- The table's words run as the first operation after reset. -/
theorem test_table_words_run_after_reset : ∀ w ∈ [1, 2, 3, 4, 5, 6, 7],
    (decodeTableWord 8 w).isSome = true ∧ nextHas (step (State.reset.withFetchWord 8 w)) (fun t => t.schedule == []) = true := by
  decide

/-! ### One step of each operation -/

/-- V1. -/
theorem test_initialise_at_power_on : nextHas (exec .initialise State.reset) (fun t =>
    t.state == .init && t.pinMode == .output && t.pinLevel == .unknown) = true := by decide

/-- V4: the cycle is abandoned; FRAME and BITCNT stay and a later FALL is not dispatched. -/
theorem test_initialise_in_rxData : nextHas (exec .initialise { at_ .rxData with pinMode := .inputIrq, frame := 5, bitcnt := 3 })
    (fun t => t.state == .init && t.pinMode == .output && t.frame == 5 && t.bitcnt == 3 && !t.edgeDispatched) = true := by
  decide

/-- V9. -/
theorem test_request_in_idle : nextHas (exec .request { at_ .idle with bitcnt := 40 }) (fun t =>
    t.state == .startcommInit && t.bitcnt == 40) = true := by decide

/-- V10 and V14. -/
theorem test_request_elsewhere : (nextHas (exec .request (at_ .init)) (fun t => t == at_ .init) &&
    nextHas (exec .request (at_ .rxData)) (fun t => t == at_ .rxData)) = true := by decide

/-- V26: the elapsed time across the wrap of NOW is 18. -/
theorem test_poll_delay_exit_across_wrap : nextHas
    (exec .poll { at_ .startcommDelay with snap := 0xFFFFFFFB, now := 13, cnt := 77, frame := 0x123 }) (fun t =>
      t.state == .startcommEnd && t.pinLevel == .high && t.frame == 0 && t.pinMode == .inputIrq && t.cnt == 0) = true := by
  decide

/-- V49 under STRICT_FULL: a good checksum with 39 bits counted is withheld. -/
theorem test_poll_eval_short_frame_withheld : nextHas
    (exec .poll { at_ .evalData with params := { commitPolicy := .strictFull }, frame := 0x190016002F, bitcnt := 39, storedTInt := 1, storedTDec := 2, storedHInt := 3 })
    (fun t => t.outcome == 0b0111 && t.storedTInt == 1 && t.storedTDec == 2 && t.storedHInt == 3 && t.state == .init) = true := by
  decide

/-- V36b: the threshold itself decodes to 0. -/
theorem test_edge_at_threshold : nextHas (exec .edge { at_ .rxData with cnt := 85 }) (fun t =>
    t.frame == 0 && t.bitcnt == 1 && t.cnt == 0) = true := by decide

/-- V38: BITCNT wraps and the old bit 39 is lost. -/
theorem test_edge_wraps_bitcnt : nextHas (exec .edge { at_ .rxData with frame := 0xFFFFFFFFFF, bitcnt := 255, cnt := 86 })
    (fun t => t.frame == 0xFFFFFFFFFF && t.bitcnt == 0 && t.cnt == 0) = true := by decide

/-- V52. -/
theorem test_getTemp : nextHas (exec .getTemp { at_ .idle with storedTInt := 22 }) (fun t =>
    t.responses == [.temp 0x1600]) = true := by decide

/-- V52. -/
theorem test_getHum : nextHas (exec .getHum { at_ .idle with storedHInt := 25 }) (fun t =>
    t.responses == [.hum 0x19]) = true := by decide

/-- V53. -/
theorem test_getStatus_in_rxData : nextHas (exec .getStatus { at_ .rxData with outcome := 0b1011 }) (fun t =>
    t.responses == [.status 0x5B]) = true := by decide

/-- V54. -/
theorem test_getStatus_unrecognized : nextHas (exec .getStatus { at_ .unrecognized with outcome := 0b1111 }) (fun t =>
    t.responses == [.status 0x7F]) = true := by decide

/-! ### Environment steps and the assembler -/

/-- V56. -/
theorem test_time_wraps : nextHas (step { at_ .idle with now := 0xFFFFFFFE, schedule := [.time 5] }) (fun t =>
    t.now == 3) = true := by decide

/-- V57. -/
theorem test_tick_wraps : nextHas (step { at_ .idle with cnt := 65530, schedule := [.tick 10] }) (fun t =>
    t.cnt == 4) = true := by decide

/-- V58 and V59: a falling edge in IDLE, without and with SPURIOUS_EDGES. -/
theorem test_fall_in_idle : (nextHas (step { at_ .idle with pinMode := .output, cnt := 90, schedule := [.fall] })
      (fun t => t.frame == 0 && t.bitcnt == 0 && t.cnt == 90) &&
    nextHas (step { at_ .idle with params := { spuriousEdges := true }, pinMode := .output, cnt := 90, schedule := [.fall] })
      (fun t => t.frame == 1 && t.bitcnt == 1 && t.cnt == 0)) = true := by decide

/-- Line 8 of program P1 with a comment after it. -/
theorem test_parse_now : parseLine ['.', 'n', 'o', 'w', ' ', '1', '0', '1', '8', ' ', ';', 'x'] = some (.now 1018) := by
  decide

/-- Line 6 of program P5. -/
theorem test_parse_byte : parseLine ['B', 'Y', 'T', 'E', ' ', '0', 'x', '2', 'F'] = some (.byte 0x2F) := by decide

/-- READ is REQUEST then POLL (R78). -/
theorem test_parse_read : (parseLine ['R', 'E', 'A', 'D']).map Line.events = some [.command 0x02, .command 0x03] := by
  decide

/-! ### Witnesses: the hypotheses of each statement can be met together -/

theorem witness_ReservedWordIsRefused : ∃ (s : State) (rest : List Event),
    (s.schedule = .command 0x00 :: rest ∧ (0x00 : CommandWord).toNat = 0) ∧
    (8 ≤ (0x08 : CommandWord).toNat ∧ (0x0F : CommandWord).toNat ≤ 15) ∧ (0x10 : CommandWord).toNat / 16 ≠ 0 :=
  ⟨{ State.reset with schedule := [.command 0x00] }, [], by decide⟩

theorem witness_StepRunsTheDecodedOperation : ∃ (s : State) (w : CommandWord) (i : Instr),
    s.schedule = .command w :: [] ∧ decode w = .ok i :=
  ⟨State.reset.withFetchWord 8 7, 0x07, .getStatus, rfl, rfl⟩

theorem witness_EmptyScheduleKeepsState : State.reset.schedule = [] := rfl

theorem witness_TimeAdvancesNow : ∃ s : State, s.schedule = .time 5 :: [] ∧ s.now = 0xFFFFFFFE :=
  ⟨{ State.reset with schedule := [.time 5], now := 0xFFFFFFFE }, rfl, rfl⟩

theorem witness_TickAdvancesCounter : ∃ s : State, s.schedule = .tick 10 :: [] ∧ s.cnt = 65530 :=
  ⟨{ State.reset with schedule := [.tick 10], cnt := 65530 }, rfl, rfl⟩

theorem witness_NowDirectiveSetsNow : ∃ s : State, s.schedule = .now 3 :: [] ∧ s.now = 0xFFFFFFFE :=
  ⟨{ State.reset with schedule := [.now 3], now := 0xFFFFFFFE }, rfl, rfl⟩

theorem witness_FallRunsEdgeWhenDispatched :
    (∃ s : State, s.schedule = .fall :: [] ∧ s.pinMode = .inputIrq ∧ s.params.spuriousEdges = false) ∧
    (∃ s : State, s.schedule = .fall :: [] ∧ s.pinMode = .output ∧ s.params.spuriousEdges = true) ∧
    (∃ s : State, s.schedule = .fall :: [] ∧ ¬ (s.pinMode = .inputIrq ∨ s.params.spuriousEdges = true)) :=
  ⟨⟨{ State.reset with schedule := [.fall], pinMode := .inputIrq }, by decide⟩,
   ⟨{ State.reset with schedule := [.fall], pinMode := .output, params := { spuriousEdges := true } }, by decide⟩,
   ⟨{ State.reset with schedule := [.fall] }, by decide⟩⟩

theorem witness_PowerLossResetsRegisters : ∃ s : State, s.schedule = .powerCycle 7 9 :: [] ∧ s.state = .rxData :=
  ⟨{ at_ .rxData with schedule := [.powerCycle 7 9] }, by decide⟩

theorem witness_LineDrivenOnlyAsOutput : (∃ s : State, s.pinMode = .output) ∧ (∃ s : State, s.pinMode = .inputIrq) ∧
    (∃ s : State, s.pinMode = .unconfigured) :=
  ⟨⟨{ State.reset with pinMode := .output }, rfl⟩, ⟨{ State.reset with pinMode := .inputIrq }, rfl⟩, ⟨State.reset, rfl⟩⟩

/-- For RequestStartsOnlyFromIdle, PollInIdle, PollInInit, PollInStartcommInit, PollInStartcommEnd,
PollRecoversUnrecognizedState and OutcomeTable: a state with each value of STATE. -/
theorem witness_every_state_value : (at_ .init).state = .init ∧ (at_ .idle).state = .idle ∧
    (at_ .startcommInit).state = .startcommInit ∧ (at_ .startcommEnd).state = .startcommEnd ∧
    (at_ .evalData).state = .evalData ∧ (at_ .unrecognized).state = .unrecognized := by decide

/-- For the second clause of PollInStartcommInit: a STARTCOMM_INIT state that meets the pin invariant. -/
theorem witness_PollInStartcommInit : ∃ s : State, s.state = .startcommInit ∧ s.PinInv :=
  ⟨{ at_ .startcommInit with pinMode := .output, pinLevel := .high }, by decide⟩

/-- Both clauses of PollInStartcommDelay at the boundary: elapsed times 18 and 17, the first across the wrap of NOW. -/
theorem witness_PollInStartcommDelay :
    (∃ s : State, s.state = .startcommDelay ∧ (s.now.toNat + 2 ^ TW - s.snap.toNat) % 2 ^ TW = 18 ∧ s.params.tStart = 18) ∧
    (∃ s : State, s.state = .startcommDelay ∧ (s.now.toNat + 2 ^ TW - s.snap.toNat) % 2 ^ TW = 17 ∧ s.params.tStart = 18) :=
  ⟨⟨{ at_ .startcommDelay with snap := 0xFFFFFFFB, now := 13 }, by decide⟩,
   ⟨{ at_ .startcommDelay with snap := 1000, now := 1017 }, by decide⟩⟩

/-- The clauses of PollInRxData at the boundary: elapsed time 20 with no bit, 19 with 40 bits, 19 with 39 bits. -/
theorem witness_PollInRxData :
    (∃ s : State, s.state = .rxData ∧ (s.now.toNat + 2 ^ TW - s.snap.toNat) % 2 ^ TW = 20 ∧ s.params.tRx = 20 ∧ s.bitcnt = 0) ∧
    (∃ s : State, s.state = .rxData ∧ (s.now.toNat + 2 ^ TW - s.snap.toNat) % 2 ^ TW = 19 ∧ s.bitcnt.toNat = s.params.nBits) ∧
    (∃ s : State, s.state = .rxData ∧ (s.now.toNat + 2 ^ TW - s.snap.toNat) % 2 ^ TW < s.params.tRx ∧
      s.bitcnt.toNat < s.params.nBits) :=
  ⟨⟨{ at_ .rxData with now := 20 }, by decide⟩, ⟨{ at_ .rxData with now := 19, bitcnt := 40 }, by decide⟩,
   ⟨{ at_ .rxData with now := 19, bitcnt := 39 }, by decide⟩⟩

/-- Both values of `ok`, `short` and `commit` in PollInEvalDataEvaluates occur: V40, V41 and V46 under STRICT. -/
theorem witness_PollInEvalDataEvaluates :
    (∃ s : State, s.state = .evalData ∧ s.frame.toNat = 0x190016002F ∧ s.bitcnt.toNat = s.params.nBits ∧
      (s.frame.toNat / 2 ^ 32 % 256 + s.frame.toNat / 2 ^ 24 % 256 + s.frame.toNat / 2 ^ 16 % 256 +
        s.frame.toNat / 2 ^ 8 % 256) % 256 = s.frame.toNat % 256) ∧
    (∃ s : State, s.state = .evalData ∧ s.frame.toNat = 0x1900160030 ∧ s.bitcnt.toNat = s.params.nBits ∧
      (s.frame.toNat / 2 ^ 32 % 256 + s.frame.toNat / 2 ^ 24 % 256 + s.frame.toNat / 2 ^ 16 % 256 +
        s.frame.toNat / 2 ^ 8 % 256) % 256 ≠ s.frame.toNat % 256) ∧
    (∃ s : State, s.state = .evalData ∧ s.frame.toNat = 0 ∧ s.bitcnt.toNat < s.params.nBits) :=
  ⟨⟨{ at_ .evalData with frame := 0x190016002F, bitcnt := 40 }, by decide⟩,
   ⟨{ at_ .evalData with frame := 0x1900160030, bitcnt := 40 }, by decide⟩, ⟨at_ .evalData, by decide⟩⟩

theorem witness_EdgesFillTheFrame : ∃ (s : State) (ks : List Nat), s.pinMode = .inputIrq ∧ s.frame = 0 ∧ s.cnt = 0 ∧
    ks = [84, 86] ∧ s.schedule = ks.flatMap (fun k => [Event.tick k, Event.fall]) ++ [] :=
  ⟨{ at_ .rxData with pinMode := .inputIrq, schedule := [.tick 84, .fall, .tick 86, .fall] }, [84, 86], by decide⟩

theorem witness_Frame40DeliversTheFrame : ∃ s : State, s.pinMode = .inputIrq ∧ s.cnt = 0 ∧ s.params.bitThreshold = 85 ∧
    s.schedule = assemble [.frame40 0x190016002F] ++ [] :=
  ⟨{ at_ .rxData with pinMode := .inputIrq, schedule := assemble [.frame40 0x190016002F] ++ [] }, rfl, rfl, rfl, rfl⟩

/-- For ResponsesInfluenceNothing, OnlyHostOperationsWriteState, ParametersAreFixed and DoneStaysSet's premises on the
step: a step that answers a next state and changes STATE. -/
theorem witness_step_that_changes_state : ∃ s t : State, step s = .next t ∧ t.state ≠ s.state ∧
    (∀ n c rest, s.schedule ≠ .powerCycle n c :: rest) ∧ s.outcome.getLsbD 0 = true :=
  ⟨{ at_ .idle with schedule := [.command 0x02], outcome := 0b0001 }, { at_ .startcommInit with outcome := 0b0001 },
    rfl, by decide, by simp, by decide⟩

/-- For NoStepWritesSeven: STATE = 7 is kept by a step that does not write it. -/
theorem witness_NoStepWritesSeven : ∃ s t : State, step s = .next t ∧ t.state.code = 7 :=
  ⟨at_ .unrecognized, at_ .unrecognized, rfl, by decide⟩

/-- For OnlyEvaluationWritesTheRecord and ReadingIsNeverPartlyUpdated: an evaluation that changes the record. -/
theorem witness_OnlyEvaluationWritesTheRecord : ∃ s t : State, step s = .next t ∧ t.outcome ≠ s.outcome ∧
    (∀ n c rest, s.schedule ≠ .powerCycle n c :: rest) :=
  ⟨{ at_ .evalData with schedule := [.command 0x03], bitcnt := 40 }, { at_ .init with bitcnt := 40, outcome := 0b1011 },
    rfl, by decide, by simp⟩

/-- For TimeSourceWriters: a step that changes NOW, one that changes CNT. -/
theorem witness_TimeSourceWriters : (∃ s t : State, step s = .next t ∧ t.now ≠ s.now) ∧
    (∃ s t : State, step s = .next t ∧ t.cnt ≠ s.cnt) :=
  ⟨⟨{ at_ .idle with schedule := [.time 5] }, { at_ .idle with now := 5 }, rfl, by decide⟩,
   ⟨{ at_ .idle with schedule := [.tick 5] }, { at_ .idle with cnt := 5 }, rfl, by decide⟩⟩

/-- For CaptureRegisterWriters: steps that change BITCNT and FRAME (an EDGE) and SNAP (POLL in STARTCOMM_END). -/
theorem witness_CaptureRegisterWriters :
    (∃ s t : State, step s = .next t ∧ (∀ n c rest, s.schedule ≠ .powerCycle n c :: rest) ∧ t.bitcnt ≠ s.bitcnt ∧
      t.frame ≠ s.frame) ∧
    (∃ s t : State, step s = .next t ∧ (∀ n c rest, s.schedule ≠ .powerCycle n c :: rest) ∧ t.snap ≠ s.snap) :=
  ⟨⟨{ at_ .rxData with cnt := 86, schedule := [.command 0x04] }, { at_ .rxData with bitcnt := 1, frame := 1 }, rfl, by simp, by decide, by decide⟩,
   ⟨{ at_ .startcommEnd with now := 9, schedule := [.command 0x03] }, { at_ .rxData with now := 9, snap := 9 }, rfl, by simp, by decide⟩⟩

/-- For PinWriters: the INIT POLL changes both the mode and the level. -/
theorem witness_PinWriters : ∃ s t : State, step s = .next t ∧ (∀ n c rest, s.schedule ≠ .powerCycle n c :: rest) ∧
    t.pinMode ≠ s.pinMode ∧ t.pinLevel ≠ s.pinLevel :=
  ⟨{ at_ .init with schedule := [.command 0x03] }, { at_ .idle with pinMode := .output, pinLevel := .high }, rfl, by simp,
    by decide, by decide⟩

theorem witness_EnvironmentChangesOnlyCaptureState : ∃ (s : State) (es : List Event),
    (∀ e ∈ es, e.isEnvironment = true) ∧ es = [.tick 90, .fall, .time 3, .now 8] ∧ s.schedule = es ++ [] :=
  ⟨{ at_ .init with pinMode := .inputIrq, schedule := [.tick 90, .fall, .time 3, .now 8] }, [.tick 90, .fall, .time 3, .now 8],
    by decide⟩

/-- For SpuriousEdgesOnlyAddRuns: in INIT with the edge interrupt armed, one edge is dispatched, POLL disarms it, and a
second edge is not; the last entry of the schedule is not reached. -/
theorem witness_SpuriousEdgesOnlyAddRuns : ∃ s t : State, s.params.spuriousEdges = false ∧ runSteps 3 s = .next t ∧
    s.dispatchedEvents 3 = [.fall, .command 0x03] ∧ s.schedule = [.fall, .command 0x03, .fall, .tick 7] :=
  ⟨{ at_ .init with pinMode := .inputIrq, cnt := 90, schedule := [.fall, .command 0x03, .fall, .tick 7] },
    { at_ .idle with pinMode := .output, pinLevel := .high, frame := 1, bitcnt := 1, schedule := [.tick 7] },
    rfl, rfl, rfl, rfl⟩

/-- For SpuriousEdgesAgreeOnOneStep: an edge that is dispatched, and one that is not. -/
theorem witness_SpuriousEdgesAgreeOnOneStep :
    (∃ s t : State, s.params.spuriousEdges = false ∧ step s = .next t ∧ s.schedule = [.fall] ∧ s.edgeDispatched = true) ∧
    (∃ s t : State, s.params.spuriousEdges = false ∧ step s = .next t ∧ s.schedule = [.fall] ∧ s.edgeDispatched = false) :=
  ⟨⟨{ at_ .rxData with pinMode := .inputIrq, schedule := [.fall] }, { at_ .rxData with pinMode := .inputIrq, bitcnt := 1 },
      rfl, rfl, rfl, rfl⟩,
   ⟨{ at_ .idle with schedule := [.fall] }, at_ .idle, rfl, rfl, rfl, rfl⟩⟩

/-- For FaultsAreRecorded: each of the three faults is detected somewhere. -/
theorem witness_FaultsAreRecorded : (∃ s : State, s.pollDetects .timeout = true) ∧
    (∃ s : State, s.pollDetects .checksum = true) ∧ (∃ s : State, s.pollDetects .invalidState = true) :=
  ⟨⟨at_ .evalData, by decide⟩, ⟨{ at_ .evalData with frame := 0x0100000000 }, by decide⟩, ⟨at_ .unrecognized, by decide⟩⟩

theorem witness_EmptyFramePassesTheChecksum :
    (∃ s : State, s.state = .evalData ∧ s.frame = 0 ∧ s.bitcnt = 0 ∧ 0 < s.params.nBits ∧ s.params.commitPolicy ≠ .strictFull) ∧
    (∃ s : State, s.state = .evalData ∧ s.frame = 0 ∧ s.bitcnt = 0 ∧ 0 < s.params.nBits ∧ s.params.commitPolicy = .strictFull) :=
  ⟨⟨at_ .evalData, by decide⟩, ⟨{ at_ .evalData with params := { commitPolicy := .strictFull } }, by decide⟩⟩

/-- For ChecksumGatesTheReading and MatchingFrameIsStoredUnderEveryPolicy: the frames of V40 and V41. -/
theorem witness_ChecksumGatesTheReading :
    (∃ s : State, s.state = .evalData ∧ s.frame = frameOf 25 0 22 0 47 ∧ (47 : Byte) = 25 + 0 + 22 + 0 ∧
      s.params.commitPolicy = .strictFull ∧ s.params.nBits ≤ s.bitcnt.toNat) ∧
    (∃ s : State, s.state = .evalData ∧ s.frame = frameOf 25 0 22 0 48 ∧ (48 : Byte) ≠ 25 + 0 + 22 + 0 ∧
      s.params.commitPolicy ≠ .always) :=
  ⟨⟨{ at_ .evalData with frame := 0x190016002F, bitcnt := 40, params := { commitPolicy := .strictFull } }, by decide⟩,
   ⟨{ at_ .evalData with frame := 0x1900160030, bitcnt := 40 }, by decide⟩⟩

theorem witness_DeliveredFrameIsStored : ∃ s : State, s.state = .rxData ∧ s.pinMode = .inputIrq ∧ s.cnt = 0 ∧ s.bitcnt = 0 ∧
    s.params.bitThreshold = 85 ∧ s.params.nBits = 40 ∧
    s.schedule = assemble [.frame40 (frameOf 25 0 22 0 (25 + 0 + 22 + 0)), .op .poll, .op .poll] ++ [] :=
  ⟨{ at_ .rxData with pinMode := .inputIrq, schedule := assemble [.frame40 (frameOf 25 0 22 0 (25 + 0 + 22 + 0)), .op .poll, .op .poll] ++ [] },
    rfl, rfl, rfl, rfl, rfl, rfl, rfl⟩

/-- For StepKeepsInvariant: a state in the middle of a cycle, after a committed reading, that meets the invariant and
takes a step. -/
theorem witness_StepKeepsInvariant : ∃ s t : State, s.Inv ∧ s.state = .rxData ∧ outcomeDone s.outcome = true ∧
    step s = .next t :=
  ⟨{ at_ .rxData with pinMode := .inputIrq, pinLevel := .high, outcome := 0b1011, schedule := [.tick 3] },
    { at_ .rxData with pinMode := .inputIrq, pinLevel := .high, outcome := 0b1011, cnt := 3 }, by decide, rfl, by decide, rfl⟩

/-- For StepKeepsPulseInvariant: a state in the host's low pulse with a falling edge to come. -/
theorem witness_StepKeepsPulseInvariant : ∃ s t : State, s.PulseInv ∧ s.state = .startcommDelay ∧ s.schedule = [.fall] ∧
    step s = .next t :=
  ⟨{ at_ .startcommDelay with pinMode := .output, pinLevel := .low, schedule := [.fall] },
    { at_ .startcommDelay with pinMode := .output, pinLevel := .low }, by decide, rfl, rfl, rfl⟩

theorem witness_TimeoutReachesIdleInThreePolls : ∃ (s : State) (es fs : List Event), s.state = .rxData ∧
    (s.now.toNat + 2 ^ TW - s.snap.toNat) % 2 ^ TW ≥ s.params.tRx ∧ (∀ e ∈ es, e.isEnvironment = true) ∧
    (∀ e ∈ fs, e.isEnvironment = true) ∧ es = [.fall] ∧ fs = [.time 1, .fall] ∧
    s.schedule = .command 0x03 :: (es ++ .command 0x03 :: (fs ++ .command 0x03 :: [])) :=
  ⟨{ at_ .rxData with pinMode := .inputIrq, now := 20, schedule := [.command 0x03, .fall, .command 0x03, .time 1, .fall, .command 0x03] },
    [.fall], [.time 1, .fall], by decide⟩

/-- For CycleTakesAtLeastSixPolls and CycleOfSixPollsReachesIdle: the start state and a schedule of six POLLs. -/
theorem witness_CycleOfSixPolls : ∃ (s : State) (es : List Event), s.state = .startcommInit ∧ s.params.tStart < 2 ^ TW ∧
    s.params.tRx < 2 ^ TW ∧ s.schedule = es ++ [] ∧
    es = [.command 0x03, .time s.params.tStart, .command 0x03, .command 0x03, .time s.params.tRx, .command 0x03, .command 0x03, .command 0x03] ∧
    (∀ e ∈ es, e ≠ .command 0x01 ∧ ∀ n c, e ≠ .powerCycle n c) ∧
    nextHas (runSteps es.length s) (fun t => t.state == .idle) = true :=
  ⟨{ at_ .startcommInit with schedule := [.command 0x03, .time 18, .command 0x03, .command 0x03, .time 20, .command 0x03, .command 0x03, .command 0x03] },
    [.command 0x03, .time 18, .command 0x03, .command 0x03, .time 20, .command 0x03, .command 0x03, .command 0x03],
    rfl, by decide, by decide, rfl, rfl, by simp, by decide⟩

end Sys2Proof.Tests
end

/-! # Scope: the step, and SPURIOUS_EDGES (00_scope.md R8, R10, R11, R174) -/

namespace Sys2Proof.Machine

/-! ### What a step answers (R10, R11) -/

/-- Presenting a word is refused only when the word is reserved (R11, R75). -/
theorem presentCommand_next_or_reserved (w : CommandWord) (s : State) :
    (∃ t, presentCommand w s = .next t) ∨
      (w.toNat = 0 ∨ 8 ≤ w.toNat) ∧ presentCommand w s = .refused (.reservedWord w) := by
  cases hd : decode w with
  | ok i => rw [presentCommand_ok hd]; exact .inl (exec_next i s)
  | error d =>
    have hw : CommandWord.wf w = false := by
      by_contra hw
      simpa [hd, Except.isOk, Except.toBool] using decode_isOk_of_wf w (by simpa using hw)
    exact .inr ⟨(not_wf_iff w).mp hw, presentCommand_reserved hw s⟩

/-- Settles O5: of the six kinds of agent step, only a presented command word can fail to answer a next state. -/
theorem stepRunsUnlessReserved : Obligations.StepRunsUnlessReserved := by
  intro s
  cases hs : s.schedule with
  | nil => exact .inl ⟨s, step_nil hs⟩
  | cons e rest =>
    rw [step_cons hs]
    cases e with
    | command w =>
      obtain hn | ⟨hw, hr⟩ := presentCommand_next_or_reserved w { s with schedule := rest }
      · exact .inl hn
      · exact .inr ⟨w, rest, rfl, hw, hr⟩
    | time k => exact .inl ⟨_, rfl⟩
    | now v => exact .inl ⟨_, rfl⟩
    | tick k => exact .inl ⟨_, rfl⟩
    | fall => exact .inl ⟨_, fallingEdge_eq _⟩
    | powerCycle n c => exact .inl ⟨_, rfl⟩

/-- Settles O6: the step takes the entry off the schedule, and presenting the word of an operation runs it. -/
theorem stepRunsTheDecodedOperation : Obligations.StepRunsTheDecodedOperation := by
  intro s w rest i hs hd
  rw [step_cons hs]
  exact presentCommand_ok hd _

/-! ### The same block in another run

No operation reads the schedule or SPURIOUS_EDGES: an operation commutes with changing both. An event does so too, as
long as a falling edge is dispatched in both runs or in neither. -/

/-- The same block in a run with another value of SPURIOUS_EDGES and other agents' steps still to come (R8, R58). -/
def State.inRun (s : State) (spurious : Bool) (es : List Event) : State :=
  { s with params := { s.params with spuriousEdges := spurious }, schedule := es }

section OtherRun
variable {i : Instr} {e : Event} {s t : State} (b : Bool) (es : List Event)

@[simp] theorem State.inRun_state : (s.inRun b es).state = s.state := rfl
@[simp] theorem State.inRun_schedule : (s.inRun b es).schedule = es := rfl

/-- The model's own change of run is the one to SPURIOUS_EDGES = true. -/
theorem inRun_true_eq : s.inRun true es = s.allowingSpuriousEdges.withSchedule es := rfl

/-- In a run with SPURIOUS_EDGES = true every falling edge is dispatched (R174). -/
theorem edgeDispatched_inRun_true : (s.inRun true es).edgeDispatched = true :=
  (edgeDispatched_iff _).mpr (.inr rfl)

theorem pollStartcommDelay_inRun :
    pollStartcommDelay (s.inRun b es) = (pollStartcommDelay s).inRun b es := by
  simp only [pollStartcommDelay, apply_ite (State.inRun · b es)]
  rfl

theorem pollRxData_inRun : pollRxData (s.inRun b es) = (pollRxData s).inRun b es := by
  simp only [pollRxData, apply_ite (State.inRun · b es)]
  rfl

theorem evaluate_inRun : (s.inRun b es).evaluate = s.evaluate.inRun b es := by
  rw [evaluate_eq, evaluate_eq]
  rfl

/-- An operation reads neither the schedule nor SPURIOUS_EDGES, and changes neither. -/
theorem exec_inRun (h : exec i s = .next t) : exec i (s.inRun b es) = .next (t.inRun b es) := by
  cases i
  case initialise => cases h; rfl
  case request =>
    cases hs : s.state <;> simp only [exec, execRequest, hs, State.inRun_state] at h ⊢ <;> cases h <;> rfl
  case poll =>
    cases hs : s.state <;> simp only [exec, execPoll, hs, State.inRun_state] at h ⊢ <;> cases h
    case startcommDelay => rw [pollStartcommDelay_inRun]
    case rxData => rw [pollRxData_inRun]
    case evalData => rw [pollEvalData, evaluate_inRun]; rfl
    all_goals rfl
  case edge => cases h; rfl
  case getTemp => cases h; rfl
  case getHum => cases h; rfl
  case getStatus => cases h; rfl

/-- An event does the same to the block in the other run, unless it is a falling edge that only one of the two runs
dispatches (R173, R174). -/
theorem runEvent_inRun (h : runEvent e s = .next t)
    (hd : e = .fall → (s.inRun b es).edgeDispatched = s.edgeDispatched) :
    runEvent e (s.inRun b es) = .next (t.inRun b es) := by
  obtain ⟨w, i, rfl, hw, hx⟩ | ⟨k, rfl | ⟨v, rfl, rfl⟩, rfl⟩ | ⟨k, rfl, rfl⟩ | ⟨rfl, rfl⟩ | ⟨n, c, rfl, rfl⟩ :=
    runEvent_next h
  · exact (presentCommand_ok hw _).trans (exec_inRun b es hx)
  · rfl
  · rfl
  · rfl
  · refine (fallingEdge_eq _).trans ?_
    rw [hd rfl]
    cases s.edgeDispatched <;> rfl
  · rfl

/-- No event changes the agents' remaining steps: run it in the very run it is in. -/
theorem runEvent_schedule (h : runEvent e s = .next t) : t.schedule = s.schedule := by
  have h' : runEvent e s = .next (t.inRun s.params.spuriousEdges s.schedule) := runEvent_inRun _ _ h fun _ => rfl
  have ht : t = t.inRun s.params.spuriousEdges s.schedule := Host.Outcome.next.inj (h.symm.trans h')
  rw [ht, State.inRun_schedule]

/-! ### Runs with SPURIOUS_EDGES = false and with true (R8, R174) -/

/-- One step beside the run with SPURIOUS_EDGES = true: nothing is left to do; or the step takes a falling edge that is
not dispatched, which the other run leaves out; or the other run takes the same step, whatever comes after it. -/
theorem step_beside_spurious_run (h : step s = .next t) :
    (s.schedule = [] ∧ t = s) ∨
    (∃ rest, s.schedule = .fall :: rest ∧ s.edgeDispatched = false ∧ t = { s with schedule := rest } ∧
      ∀ n, s.dispatchedEvents (n + 1) = t.dispatchedEvents n) ∨
    (∃ e rest, s.schedule = e :: rest ∧ t.schedule = rest ∧
      (∀ n, s.dispatchedEvents (n + 1) = e :: t.dispatchedEvents n) ∧
      ∀ es, step (s.inRun true (e :: es)) = .next (t.inRun true es)) := by
  obtain hnil | ⟨e, rest, hs, hr⟩ := step_next h
  · exact .inl hnil
  by_cases hd : e = .fall ∧ s.edgeDispatched = false
  · obtain ⟨rfl, hf⟩ := hd
    have ht : runEvent .fall { s with schedule := rest } = .next { s with schedule := rest } :=
      (fallingEdge_eq _).trans (congrArg _ (if_neg (Bool.eq_false_iff.mp hf)))
    rw [hr] at ht
    injection ht with ht
    exact .inr (.inl ⟨rest, hs, hf, ht, fun n => by rw [dispatchedEvents_succ hs h, if_pos ⟨rfl, hf⟩]⟩)
  · refine .inr (.inr ⟨e, rest, hs, runEvent_schedule hr, fun n => ?_, fun es => ?_⟩)
    · rw [dispatchedEvents_succ hs h, if_neg hd]
    · rw [step_cons (State.inRun_schedule true (e :: es))]
      refine runEvent_inRun (s := { s with schedule := rest }) true es hr fun he => ?_
      rw [edgeDispatched_inRun_true]
      exact (Bool.eq_true_of_not_eq_false fun hf => hd ⟨he, hf⟩).symm

/-- A run with either value of SPURIOUS_EDGES beside the run with true, by induction on the number of steps: an edge that
is not dispatched leaves the two runs in the same state, and every other entry is taken in both. -/
theorem runSteps_beside_spurious_run {n : Nat} (h : runSteps n s = .next t) :
    (s.dispatchedEvents n).Sublist (s.schedule.take n) ∧
    (s.dispatchedEvents n).filter (· != .fall) = (s.schedule.take n).filter (· != .fall) ∧
    runSteps (s.dispatchedEvents n).length (s.inRun true (s.dispatchedEvents n ++ s.schedule.drop n)) =
      .next t.allowingSpuriousEdges := by
  induction n generalizing s with
  | zero => cases h; exact ⟨.slnil, rfl, rfl⟩
  | succ n ih =>
    cases hu : step s with
    | fault r => cases r
    | refused r => simp [runSteps, hu] at h
    | next u =>
      rw [runSteps_succ_of_next hu] at h
      obtain ⟨hsub, hfilter, hrun⟩ := ih h
      obtain ⟨hs, rfl⟩ | ⟨rest, hs, -, rfl, hdisp⟩ | ⟨e, rest, hs, rfl, hdisp, hstep⟩ := step_beside_spurious_run hu
      · simpa [hs] using hrun
      · rw [hdisp, hs]
        exact ⟨hsub.cons _, by simpa using hfilter, hrun⟩
      · rw [hdisp, hs]
        exact ⟨hsub.cons_cons e, by simp [List.filter_cons, hfilter],
          (runSteps_succ_of_next (hstep _) _).trans hrun⟩

end OtherRun

/-- Settles O60: with nothing left to do both runs stay, and otherwise the step is taken in both runs or takes an
undispatched falling edge. -/
theorem spuriousEdgesAgreeOnOneStep : Obligations.SpuriousEdgesAgreeOnOneStep := by
  intro s t _ h
  obtain ⟨hs, rfl⟩ | ⟨rest, hs, hd, ht, -⟩ | ⟨e, rest, hs, rfl, -, hstep⟩ := step_beside_spurious_run h
  · exact .inl (step_nil hs)
  · exact .inr ⟨rest, hs, hd, ht⟩
  · have hrun : s.inRun true (e :: t.schedule) = s.allowingSpuriousEdges := by rw [← hs, inRun_true_eq]; rfl
    exact .inl (hrun ▸ hstep t.schedule)

/-- Settles O46: the run with SPURIOUS_EDGES = true takes exactly the dispatched entries. -/
theorem spuriousEdgesOnlyAddRuns : Obligations.SpuriousEdgesOnlyAddRuns := by
  intro n s t _ h
  rw [← inRun_true_eq]
  exact runSteps_beside_spurious_run h

end Sys2Proof.Machine

/-! # State: who writes each register, and to what (10_state.md R21 to R33)

The write table of R33 as a relation: what the next entry of the schedule can do to the registers. A step has one of
these effects (`step_effect`), and each statement about the writers of a register is read off the cases. -/

namespace Sys2Proof.Machine

/-- What a POLL that changes a register does, in each value of STATE (R104 to R110). -/
inductive PollEffect (s : State) : State → Prop
  | init (hs : s.state = .init) : PollEffect s { s with pinMode := .output, pinLevel := .high, state := .idle }
  | startcommInit (hs : s.state = .startcommInit) :
    PollEffect s { s with bitcnt := 0, pinLevel := .low, snap := s.now, state := .startcommDelay }
  | delayExit (hs : s.state = .startcommDelay) (hel : s.params.tStart ≤ s.el) :
    PollEffect s { s with pinLevel := .high, frame := 0, pinMode := .inputIrq, cnt := 0, state := .startcommEnd }
  | startcommEnd (hs : s.state = .startcommEnd) : PollEffect s { s with snap := s.now, state := .rxData }
  | rxExit (hs : s.state = .rxData) (hend : s.params.tRx ≤ s.el ∨ s.params.nBits ≤ s.bitcnt.toNat) :
    PollEffect s { s with state := .evalData }
  | evalData (hs : s.state = .evalData) :
    PollEffect s { s with storedTInt := if s.commits then tInt s.frame else s.storedTInt, storedTDec := if s.commits then tDec s.frame else s.storedTDec, storedHInt := if s.commits then hInt s.frame else s.storedHInt, outcome := outcomeWord s.commits s.short (checksumOk s.frame), state := .init }
  | recovery (hs : s.state = .unrecognized) : PollEffect s { s with state := .init }

/-- What an agent's step does to the state that no longer holds it in the schedule: one case for each column of R33,
and `quiet` for a step that writes no register (an accessor, an operation that does nothing, an edge not dispatched).
The relation says who writes what; when an operation does nothing is in `exec_next_cases`. -/
inductive StepEffect (s : State) : Event → State → Prop
  | initialise : StepEffect s (.command 0x01) { s with pinMode := .output, state := .init }
  | request (hs : s.state = .idle) : StepEffect s (.command 0x02) { s with state := .startcommInit }
  | poll {t : State} (hp : PollEffect s t) : StepEffect s (.command 0x03) t
  | edge {e : Event} (he : e = .command 0x04 ∨ e = .fall ∧ s.edgeDispatched = true) : StepEffect s e (captureEdge s)
  | time (k : Nat) : StepEffect s (.time k) (s.advanceNow k)
  | now (v : TimeValue) : StepEffect s (.now v) (s.writeNow v)
  | tick (k : Nat) : StepEffect s (.tick k) (s.advanceCounter k)
  | powerOn (n : TimeValue) (c : Count) : StepEffect s (.powerCycle n c) (s.powerCycled n c)
  | quiet (e : Event) (rs : List Response) : StepEffect s e { s with responses := rs }

section Effects
variable {s t : State} {e : Event}

/-- A command word that decodes is the word of the operation it decodes to (R70, R72). -/
theorem eq_encode_of_decode {w : CommandWord} {i : Instr} (h : decode w = .ok i) : w = encode i := by
  have rows : ∀ w : CommandWord, ∀ r ∈ opcodeTable, r.hits w = true → w = encode r.instr := by decide
  unfold decode at h
  split at h
  case h_1 r hr =>
    injection h with h
    exact h ▸ rows w r (List.mem_of_find?_eq_some hr) (List.find?_some hr)
  case h_2 => cases h

/-- The effect of an operation, as a presented command word. -/
theorem exec_effect {i : Instr} (h : exec i s = .next t) : StepEffect s (.command (encode i)) t := by
  obtain ⟨rfl, rfl⟩ | ⟨rfl, hs, rfl⟩ | ⟨rfl, -, rfl⟩ | ⟨rfl, -, rfl⟩ | ⟨rfl, hs, rfl⟩ | ⟨rfl, hs, rfl⟩ |
    ⟨rfl, hs, hel, rfl⟩ | ⟨rfl, -, -, rfl⟩ | ⟨rfl, hs, rfl⟩ | ⟨rfl, hs, hend, rfl⟩ | ⟨rfl, -, -, rfl⟩ | ⟨rfl, hs, rfl⟩ |
    ⟨rfl, hs, rfl⟩ | ⟨rfl, rfl⟩ | ⟨r, -, rfl⟩ := exec_next_cases h
  · exact .initialise
  · exact .request hs
  · exact .quiet _ t.responses
  · exact .quiet _ t.responses
  · exact .poll (.init hs)
  · exact .poll (.startcommInit hs)
  · exact .poll (.delayExit hs hel)
  · exact .quiet _ t.responses
  · exact .poll (.startcommEnd hs)
  · exact .poll (.rxExit hs hend)
  · exact .quiet _ t.responses
  · rw [evaluate_eq]; exact .poll (.evalData hs)
  · exact .poll (.recovery hs)
  · exact .edge (.inl rfl)
  · exact .quiet _ (r :: s.responses)

/-- The effect of an agent's step (R10). -/
theorem runEvent_effect (h : runEvent e s = .next t) : StepEffect s e t := by
  obtain ⟨w, i, rfl, hw, hx⟩ | ⟨k, rfl | ⟨v, rfl, rfl⟩, rfl⟩ | ⟨k, rfl, rfl⟩ | ⟨rfl, rfl⟩ | ⟨n, c, rfl, rfl⟩ :=
    runEvent_next h
  · rw [eq_encode_of_decode hw]; exact exec_effect hx
  · exact .time k
  · rw [State.advanceNow, advance_to]; exact .now v
  · exact .tick k
  · cases hd : s.edgeDispatched
    · exact .quiet .fall s.responses
    · exact .edge (.inr ⟨rfl, hd⟩)
  · exact .powerOn n c

/-- The write table of R33: a step with nothing left to do changes nothing, and any other has the effect of its entry. -/
theorem step_effect (h : step s = .next t) :
    (s.schedule = [] ∧ t = s) ∨ ∃ e rest, s.schedule = e :: rest ∧ StepEffect { s with schedule := rest } e t :=
  (step_next h).imp_right fun ⟨e, rest, hs, hr⟩ => ⟨e, rest, hs, runEvent_effect hr⟩

/-! ### Reading the head of the schedule -/

theorem nextIsPoll_of_schedule {rest : List Event} (hs : s.schedule = .command 0x03 :: rest) : s.nextIsPoll = true := by
  simp [State.nextIsPoll, hs]

theorem nextRunsEdge_of_schedule {rest : List Event} (hs : s.schedule = e :: rest)
    (he : e = .command 0x04 ∨ e = .fall ∧ s.edgeDispatched = true) : s.nextRunsEdge = true := by
  obtain rfl | ⟨rfl, hd⟩ := he
  · simp [State.nextRunsEdge, hs]
  · simp [State.nextRunsEdge, hs, hd]

/-! ### Values that the writers leave -/

/-- Above its new lowest bit, a shifted frame holds the lower 39 bits of the old one (R24, R130). -/
theorem shiftIn_toNat_div_two (f : Frame) (b : Bool) : (shiftIn f b).toNat / 2 = f.toNat % 2 ^ 39 := by
  have := b.toNat_lt
  rw [shiftIn_toNat]
  omega

theorem code_eq_seven {st : ProtocolState} : st.code = 7 ↔ st = .unrecognized := by
  cases st <;> decide

/-- A step that does not keep STATE writes a recognized value (R21). -/
theorem step_state_eq_or_ne_unrecognized (h : step s = .next t) : t.state = s.state ∨ t.state ≠ .unrecognized := by
  obtain ⟨-, rfl⟩ | ⟨e, rest, -, heff⟩ := step_effect h
  · exact .inl rfl
  · cases heff with
    | poll hp => cases hp <;> exact .inr (by simp)
    | initialise | request | powerOn => exact .inr (by simp)
    | edge | time | now | tick | quiet => exact .inl rfl

end Effects

/-! ### STATE (R21, R22) -/

/-- Settles O36: of the effects of a step, only those of INITIALIZE, REQUEST, POLL and power-on change STATE. -/
theorem onlyHostOperationsWriteState : Obligations.OnlyHostOperationsWriteState := by
  intro s t h hne
  obtain ⟨-, rfl⟩ | ⟨e, rest, hs, heff⟩ := step_effect h
  · exact absurd rfl hne
  refine ⟨e, rest, hs, ?_⟩
  cases heff with
  | initialise => exact .inl rfl
  | request hidle => exact .inr (.inl ⟨rfl, hidle, rfl⟩)
  | poll => exact .inr (.inr (.inl rfl))
  | powerOn n c => exact .inr (.inr (.inr ⟨n, c, rfl⟩))
  | edge | time | now | tick | quiet => exact absurd rfl hne

/-- Settles O37: only the unrecognized value has code 7, and a step that leaves it has kept it. -/
theorem noStepWritesSeven : Obligations.NoStepWritesSeven := by
  refine ⟨by decide, by decide, fun s t h h7 => ?_⟩
  obtain hkept | hne := step_state_eq_or_ne_unrecognized h
  · exact ⟨hkept ▸ h7, hkept⟩
  · exact absurd (code_eq_seven.mp h7) hne

/-! ### The time sources (R31, R32, R171) -/

/-- Settles O38: NOW by the two clock events and power-on; CNT by TICK, EDGE, the STARTCOMM_DELAY exit and power-on. -/
theorem timeSourceWriters : Obligations.TimeSourceWriters := by
  intro s t h
  obtain ⟨-, rfl⟩ | ⟨e, rest, hs, heff⟩ := step_effect h
  · exact ⟨fun hne => absurd rfl hne, fun hne => absurd rfl hne⟩
  refine ⟨fun hne => ⟨e, rest, hs, ?_⟩, fun hne => ⟨e, rest, hs, ?_⟩⟩
  · cases heff with
    | time k => exact .inl ⟨k, rfl⟩
    | now v => exact .inr (.inl rfl)
    | powerOn n c => exact .inr (.inr ⟨c, rfl⟩)
    | poll hp => cases hp <;> exact absurd rfl hne
    | initialise | request | edge | tick | quiet => exact absurd rfl hne
  · cases heff with
    | tick k => exact .inl ⟨k, rfl⟩
    | edge he =>
      obtain rfl | ⟨rfl, hd⟩ := he
      · exact .inr (.inl ⟨rfl, rfl⟩)
      · exact .inr (.inr (.inl ⟨rfl, (edgeDispatched_iff s).mp hd, rfl⟩))
    | poll hp =>
      cases hp with
      | delayExit hst => exact .inr (.inr (.inr (.inl ⟨rfl, hst, rfl, rfl⟩)))
      | _ => exact absurd rfl hne
    | powerOn n c => exact .inr (.inr (.inr (.inr ⟨n, rfl⟩)))
    | initialise | request | time | now | quiet => exact absurd rfl hne

/-! ### The capture registers (R23, R24, R25) -/

/-- Settles O39: BITCNT and FRAME are cleared by one POLL each and otherwise written by EDGE; SNAP by two POLLs. -/
theorem captureRegisterWriters : Obligations.CaptureRegisterWriters := by
  intro s t h hpow
  obtain ⟨-, rfl⟩ | ⟨e, rest, hs, heff⟩ := step_effect h
  · exact ⟨fun hne => absurd rfl hne, fun hne => absurd rfl hne, fun hne => absurd rfl hne⟩
  refine ⟨fun hne => ?_, fun hne => ?_, fun hne => ?_⟩
  · cases heff with
    | poll hp =>
      cases hp with
      | startcommInit hst => exact .inl ⟨nextIsPoll_of_schedule hs, hst, rfl⟩
      | _ => exact absurd rfl hne
    | edge he => exact .inr ⟨nextRunsEdge_of_schedule hs he, rfl⟩
    | powerOn => exact absurd hs (hpow _ _ _)
    | initialise | request | time | now | tick | quiet => exact absurd rfl hne
  · cases heff with
    | poll hp =>
      cases hp with
      | delayExit hst => exact .inl ⟨nextIsPoll_of_schedule hs, hst, rfl, rfl⟩
      | _ => exact absurd rfl hne
    | edge he => exact .inr ⟨nextRunsEdge_of_schedule hs he, shiftIn_toNat_div_two _ _⟩
    | powerOn => exact absurd hs (hpow _ _ _)
    | initialise | request | time | now | tick | quiet => exact absurd rfl hne
  · cases heff with
    | poll hp =>
      cases hp with
      | startcommInit hst => exact ⟨nextIsPoll_of_schedule hs, .inl hst, rfl⟩
      | startcommEnd hst => exact ⟨nextIsPoll_of_schedule hs, .inr hst, rfl⟩
      | _ => exact absurd rfl hne
    | powerOn => exact absurd hs (hpow _ _ _)
    | initialise | request | edge | time | now | tick | quiet => exact absurd rfl hne

/-! ### The pin (R29, R30) -/

/-- Settles O40: INITIALIZE writes PIN_MODE alone; every other write of the pin is a POLL's. -/
theorem pinWriters : Obligations.PinWriters := by
  intro s t h hpow
  obtain ⟨-, rfl⟩ | ⟨e, rest, hs, heff⟩ := step_effect h
  · exact ⟨fun hne => absurd rfl hne, fun hne => absurd rfl hne⟩
  refine ⟨fun hne => ⟨e, rest, hs, ?_⟩, fun hne => ?_⟩
  · cases heff with
    | initialise => exact .inl ⟨rfl, rfl⟩
    | poll hp =>
      cases hp with
      | init hst => exact .inr (.inl ⟨rfl, hst, rfl⟩)
      | delayExit hst => exact .inr (.inr ⟨rfl, hst, rfl, rfl⟩)
      | _ => exact absurd rfl hne
    | powerOn => exact absurd hs (hpow _ _ _)
    | request | edge | time | now | tick | quiet => exact absurd rfl hne
  · cases heff with
    | poll hp =>
      refine ⟨rest, hs, ?_⟩
      cases hp with
      | init hst => exact .inl ⟨hst, rfl⟩
      | startcommInit hst => exact .inr (.inl ⟨hst, rfl⟩)
      | delayExit hst => exact .inr (.inr ⟨hst, rfl, rfl⟩)
      | _ => exact absurd rfl hne
    | powerOn => exact absurd hs (hpow _ _ _)
    | initialise | request | edge | time | now | tick | quiet => exact absurd rfl hne

/-! ### The record (R26, R27, R208) -/

/-- A step other than POLL in EVAL_DATA and power-on keeps StoredReading and OUTCOME; the POLL sets OUTCOME by R147. -/
theorem step_record_cases {s t : State} (h : step s = .next t) :
    (t.storedTInt = s.storedTInt ∧ t.storedTDec = s.storedTDec ∧ t.storedHInt = s.storedHInt ∧
      t.outcome = s.outcome) ∨
    ∃ (e : Event) (rest : List Event), s.schedule = e :: rest ∧
      ((e = .command 0x03 ∧ s.state = .evalData ∧ t.state = .init ∧
        t.outcome = outcomeWord s.commits s.short (checksumOk s.frame)) ∨ ∃ n c, e = .powerCycle n c) := by
  obtain ⟨-, rfl⟩ | ⟨e, rest, hs, heff⟩ := step_effect h
  · exact .inl ⟨rfl, rfl, rfl, rfl⟩
  cases heff with
  | poll hp =>
    cases hp with
    | evalData hst => exact .inr ⟨_, rest, hs, .inl ⟨rfl, hst, rfl, rfl⟩⟩
    | _ => exact .inl ⟨rfl, rfl, rfl, rfl⟩
  | powerOn n c => exact .inr ⟨_, rest, hs, .inr ⟨n, c, rfl⟩⟩
  | initialise | request | edge | time | now | tick | quiet => exact .inl ⟨rfl, rfl, rfl, rfl⟩

/-- Settles O41: a step that keeps the record changes none of its four registers. -/
theorem onlyEvaluationWritesTheRecord : Obligations.OnlyEvaluationWritesTheRecord := by
  intro s t h hne
  obtain ⟨hti, htd, hhi, ho⟩ | ⟨e, rest, hs, ⟨he, hst, ht, -⟩ | hpow⟩ := step_record_cases h
  · simp [hti, htd, hhi, ho] at hne
  · exact ⟨e, rest, hs, .inl ⟨he, hst, ht⟩⟩
  · exact ⟨e, rest, hs, .inr hpow⟩

/-- Settles O43: OUTCOME is kept, or becomes a word of R147, whose DONE bit is 1. -/
theorem doneStaysSet : Obligations.DoneStaysSet := by
  intro s t h hpow hdone
  obtain ⟨-, -, -, ho⟩ | ⟨e, rest, hs, ⟨-, -, -, ho⟩ | ⟨n, c, rfl⟩⟩ := step_record_cases h
  · exact ho ▸ hdone
  · exact ho ▸ outcomeDone_outcomeWord _ _ _
  · exact absurd hs (hpow n c rest)

/-! ### The environment (R33, R208) -/

/-- Settles O45, by induction on the burst: each step runs and writes the capture registers and NOW alone. -/
theorem environmentChangesOnlyCaptureState : Obligations.EnvironmentChangesOnlyCaptureState := by
  intro s es rest henv hs
  induction es generalizing s with
  | nil => exact ⟨s, rfl, by rw [← show s.schedule = rest from hs]⟩
  | cons e es ih =>
    obtain ⟨he, hes⟩ := List.forall_mem_cons.mp henv
    obtain ⟨u, hu, huf⟩ := runEvent_environment { s with schedule := es ++ rest } he
    obtain ⟨t, ht, htf⟩ := ih u hes (by rw [huf])
    have hstep : step s = .next u := (step_cons hs).trans hu
    exact ⟨t, (runSteps_succ_of_next hstep _).trans ht, htf.trans (by rw [huf])⟩

end Sys2Proof.Machine

/-! # Memory: StoredReading is whole, REQUEST is idempotent, POLL does not read CNT (20_memory.md R56, R57, R64) -/

namespace Sys2Proof.Machine

/-! ### StoredReading (R56)

A step other than power-on writes StoredReading only by the commit of POLL in EVAL_DATA, which takes all three bytes
from one frame. -/

/-- A commit decision keeps StoredReading or sets it whole from the frame, and keeps the frame (R146, R149). -/
theorem commitReading_keeps_or_sets_all (s : State) (c : Bool) :
    ((s.commitReading c).storedTInt = s.storedTInt ∧ (s.commitReading c).storedTDec = s.storedTDec ∧
      (s.commitReading c).storedHInt = s.storedHInt) ∨
    ((s.commitReading c).storedTInt.toNat = s.frame.toNat / 2 ^ 16 % 256 ∧
      (s.commitReading c).storedTDec.toNat = s.frame.toNat / 2 ^ 8 % 256 ∧
      (s.commitReading c).storedHInt.toNat = s.frame.toNat / 2 ^ 32 % 256 ∧ (s.commitReading c).frame = s.frame) := by
  cases c with
  | false => exact .inl ⟨rfl, rfl, rfl⟩
  | true => exact .inr ⟨byteField_toNat 2 s.frame, byteField_toNat 1 s.frame, byteField_toNat 4 s.frame, rfl⟩

/-- Settles O42: of the effects of a step, only the commit of POLL in EVAL_DATA and power-on write StoredReading. -/
theorem readingIsNeverPartlyUpdated : Obligations.ReadingIsNeverPartlyUpdated := by
  intro s t h hpow
  obtain ⟨-, rfl⟩ | ⟨e, rest, hs, heff⟩ := step_effect h
  · exact .inl ⟨rfl, rfl, rfl⟩
  cases heff with
  | poll hp =>
    cases hp with
    | evalData =>
      have hread := commitReading_keeps_or_sets_all s { s with schedule := rest }.commits
      rw [commitReading_eq] at hread
      exact hread
    | _ => exact .inl ⟨rfl, rfl, rfl⟩
  | powerOn => exact absurd hs (hpow _ _ _)
  | initialise | request | edge | time | now | tick | quiet => exact .inl ⟨rfl, rfl, rfl⟩

/-! ### REQUEST (R57, R101) -/

section Request
variable {s : State}

theorem exec_request_of_idle (hs : s.state = .idle) : exec .request s = .next { s with state := .startcommInit } := by
  simp [exec, execRequest, hs, State.writeState]

theorem exec_request_of_ne_idle (hs : s.state ≠ .idle) : exec .request s = .next s := by
  cases h : s.state with
  | idle => exact absurd h hs
  | _ => simp only [exec, execRequest, h]

end Request

/-- Settles O16: whether or not the first REQUEST starts a reading, it leaves a STATE other than IDLE. -/
theorem secondRequestIsNoOp : Obligations.SecondRequestIsNoOp := by
  intro s
  by_cases hs : s.state = .idle
  · exact ⟨_, exec_request_of_idle hs, exec_request_of_ne_idle (by simp)⟩
  · exact ⟨s, exec_request_of_ne_idle hs, exec_request_of_ne_idle hs⟩

/-! ### POLL and CNT (R64)

The body of POLL in each STATE commutes with setting CNT beforehand, but for the STARTCOMM_DELAY exit, which clears it. -/

section Counter
variable {s t : State} (c : Count)

theorem pollStartcommDelay_portResetCounter : pollStartcommDelay (s.portResetCounter c) =
    (pollStartcommDelay s).portResetCounter (if s.params.tStart ≤ s.el then 0 else c) := by
  have hel : (s.portResetCounter c).el = s.el := rfl
  unfold pollStartcommDelay
  rw [hel, State.portResetCounter_params]
  split <;> rfl

theorem pollRxData_portResetCounter :
    pollRxData (s.portResetCounter c) = (pollRxData s).portResetCounter c := by
  simp only [pollRxData, apply_ite (State.portResetCounter · c)]
  rfl

theorem pollEvalData_portResetCounter :
    pollEvalData (s.portResetCounter c) = (pollEvalData s).portResetCounter c := by
  rw [pollEvalData, pollEvalData, evaluate_eq, evaluate_eq]
  rfl

/-- POLL leaves STARTCOMM_DELAY for STARTCOMM_END exactly when the low pulse has lasted T_START (R106). -/
theorem pollStartcommDelay_state_eq_startcommEnd (hs : s.state = .startcommDelay) :
    (pollStartcommDelay s).state = .startcommEnd ↔ s.params.tStart ≤ s.el := by
  unfold pollStartcommDelay
  split <;> simp [*]

/-- POLL with another value of CNT: the same effect, with that value kept or cleared (R64, R106). -/
theorem exec_poll_portResetCounter (h : exec .poll s = .next t) : exec .poll (s.portResetCounter c) =
    .next (t.portResetCounter (if s.state = .startcommDelay ∧ t.state = .startcommEnd then 0 else c)) := by
  cases hs : s.state <;> simp only [exec, execPoll, hs, State.portResetCounter_state] at h ⊢ <;> cases h
  case startcommDelay =>
    simp only [pollStartcommDelay_portResetCounter, pollStartcommDelay_state_eq_startcommEnd hs, true_and]
  case rxData => rw [pollRxData_portResetCounter]; rfl
  case evalData => rw [pollEvalData_portResetCounter]; rfl
  all_goals rfl

end Counter

/-- Settles O28: POLL always answers a next state, and setting CNT beforehand leaves that state the same but for CNT. -/
theorem pollIgnoresTheCounter : Obligations.PollIgnoresTheCounter := by
  intro s c
  obtain ⟨t, ht⟩ := exec_next .poll s
  exact ⟨t, ht, exec_poll_portResetCounter c ht⟩

end Sys2Proof.Machine

/-! # Encoding: the opcode map, reserved words, directives and pseudo-instructions (30_encoding.md R70 to R78) -/

namespace Sys2Proof.Machine

/-! ### The opcode map (R70, R72, R75) -/

/-- The decoder reads an operation's own word (R72). -/
@[simp] theorem decode_encode (i : Instr) : decode (encode i) = .ok i := by
  cases i <;> rfl

theorem decode_eq_ok_iff {w : CommandWord} {i : Instr} : decode w = .ok i ↔ encode i = w :=
  ⟨fun h => (eq_encode_of_decode h).symm, fun h => h ▸ decode_encode i⟩

/-- The words of the operations are 1 to 7 (R72). -/
theorem encode_toNat_bounds (i : Instr) : 1 ≤ (encode i).toNat ∧ (encode i).toNat ≤ 7 := by
  cases i <;> decide

/-- The field `z` of an operation's word is 0b0000 (R70). -/
theorem encode_highNibble (i : Instr) : (encode i).extractLsb' 4 4 = 0 := by
  cases i <;> decide

/-- Settles O3: the decoder and the encoder are inverse to each other. -/
theorem decodeEncodeAgree : Obligations.DecodeEncodeAgree :=
  ⟨fun i _ => ⟨decode_encode i, encode_highNibble i⟩, fun _ _ => decode_eq_ok_iff⟩

/-- Settles O2: each row is the round trip of its operation, and a word that decodes is an operation's word. -/
theorem opcodeMapDecodes : Obligations.OpcodeMapDecodes := by
  refine ⟨⟨decode_encode .initialise, rfl⟩, ⟨decode_encode .request, rfl⟩, ⟨decode_encode .poll, rfl⟩,
    ⟨decode_encode .edge, rfl⟩, ⟨decode_encode .getTemp, rfl⟩, ⟨decode_encode .getHum, rfl⟩,
    ⟨decode_encode .getStatus, rfl⟩, fun w i h => ?_⟩
  rw [eq_encode_of_decode h]
  exact encode_toNat_bounds i

/-- Settles O4: a word of any of the three ranges is not well formed. -/
theorem reservedWordIsRefused : Obligations.ReservedWordIsRefused := by
  intro s w rest hs hw
  have hreserved : w.toNat = 0 ∨ 8 ≤ w.toNat := by omega
  rw [step_cons hs]
  exact presentCommand_reserved ((not_wf_iff w).mpr hreserved) _

/-! ### The directive `.now` (R77, R170) -/

/-- Settles O10: `.now t` advances NOW by `t -_TW NOW`, which is the elapsed time from NOW to `t`. -/
theorem nowDirectiveSetsNow : Obligations.NowDirectiveSetsNow := by
  intro s t rest hs
  have hnow : step s = .next (State.advanceNow { s with schedule := rest } (t - s.now).toNat) := step_cons hs
  refine ⟨?_, ?_⟩
  · rw [hnow, advanceNow_eq, advance_to]
  · rw [hnow, show (t - s.now).toNat = _ from elapsed_eq_mod t s.now]
    exact (step_cons (s := { s with schedule := .time _ :: rest }) rfl).symm

/-! ### The responses already given (R14, R74)

No operation reads the list of responses: from a state with another list, an operation does the same and puts the same
new responses in front. -/

section Responses
variable {s t : State} {i : Instr} {e : Event}

theorem pollStartcommDelay_withResponses (rs : List Response) :
    pollStartcommDelay (s.withResponses rs) = (pollStartcommDelay s).withResponses rs := by
  simp only [pollStartcommDelay, apply_ite (State.withResponses · rs)]
  rfl

theorem pollRxData_withResponses (rs : List Response) :
    pollRxData (s.withResponses rs) = (pollRxData s).withResponses rs := by
  simp only [pollRxData, apply_ite (State.withResponses · rs)]
  rfl

theorem pollEvalData_withResponses (rs : List Response) :
    pollEvalData (s.withResponses rs) = (pollEvalData s).withResponses rs := by
  rw [pollEvalData, pollEvalData, evaluate_eq, evaluate_eq]
  rfl

theorem exec_request_withResponses (rs : List Response) (h : exec .request s = .next t) :
    exec .request (s.withResponses rs) = .next (t.withResponses rs) := by
  by_cases hs : s.state = .idle
  · rw [exec_request_of_idle hs] at h
    cases h
    exact exec_request_of_idle hs
  · rw [exec_request_of_ne_idle hs] at h
    cases h
    exact exec_request_of_ne_idle hs

theorem exec_poll_withResponses (rs : List Response) (h : exec .poll s = .next t) :
    exec .poll (s.withResponses rs) = .next (t.withResponses rs) := by
  have hstate : (s.withResponses rs).state = s.state := rfl
  cases hs : s.state <;> simp only [exec, execPoll, hs, hstate] at h ⊢ <;> cases h
  case startcommDelay => rw [pollStartcommDelay_withResponses]
  case rxData => rw [pollRxData_withResponses]
  case evalData => rw [pollEvalData_withResponses]
  all_goals rfl

/-- Only an accessor answers, and its response depends on the registers alone (R160 to R162). -/
theorem exec_adds_same_responses (h : exec i s = .next t) :
    ∃ new, ∀ rs, exec i (s.withResponses rs) = .next (t.withResponses (new ++ rs)) := by
  cases i
  case initialise => cases h; exact ⟨[], fun _ => rfl⟩
  case request => exact ⟨[], fun rs => exec_request_withResponses rs h⟩
  case poll => exact ⟨[], fun rs => exec_poll_withResponses rs h⟩
  case edge => cases h; exact ⟨[], fun _ => rfl⟩
  case getTemp => cases h; exact ⟨[.temp (tempWord s.storedTInt s.storedTDec)], fun _ => rfl⟩
  case getHum => cases h; exact ⟨[.hum s.storedHInt], fun _ => rfl⟩
  case getStatus => cases h; exact ⟨[.status (statusWord s.state s.outcome)], fun _ => rfl⟩

/-- Of the agents' steps only a presented command adds responses (R74, R170 to R174). -/
theorem runEvent_adds_same_responses (h : runEvent e s = .next t) :
    ∃ new, ∀ rs, runEvent e (s.withResponses rs) = .next (t.withResponses (new ++ rs)) := by
  obtain ⟨w, i, rfl, hw, hx⟩ | ⟨k, rfl | ⟨v, rfl, rfl⟩, rfl⟩ | ⟨k, rfl, rfl⟩ | ⟨rfl, rfl⟩ | ⟨n, c, rfl, rfl⟩ :=
    runEvent_next h
  · obtain ⟨new, hnew⟩ := exec_adds_same_responses hx
    exact ⟨new, fun rs => (presentCommand_ok hw _).trans (hnew rs)⟩
  · exact ⟨[], fun _ => rfl⟩
  · exact ⟨[], fun _ => rfl⟩
  · exact ⟨[], fun _ => rfl⟩
  · refine ⟨[], fun rs => (fallingEdge_eq _).trans ?_⟩
    have hdisp : (s.withResponses rs).edgeDispatched = s.edgeDispatched := rfl
    rw [hdisp]
    cases s.edgeDispatched <;> rfl
  · exact ⟨[], fun _ => rfl⟩

theorem step_adds_same_responses (h : step s = .next t) :
    ∃ new, ∀ rs, step (s.withResponses rs) = .next (t.withResponses (new ++ rs)) := by
  obtain ⟨hs, rfl⟩ | ⟨e, rest, hs, hr⟩ := step_next h
  · exact ⟨[], fun rs => step_nil hs⟩
  · obtain ⟨new, hnew⟩ := runEvent_adds_same_responses hr
    exact ⟨new, fun rs => (step_cons (s := s.withResponses rs) hs).trans (hnew rs)⟩

end Responses

/-- Settles O35: the new responses are the same for every list of old ones, the state's own list among them. -/
theorem responsesInfluenceNothing : Obligations.ResponsesInfluenceNothing := by
  intro s t rs h
  obtain ⟨new, hnew⟩ := step_adds_same_responses h
  have ht : t = t.withResponses (new ++ s.responses) := Host.Outcome.next.inj (h.symm.trans (hnew s.responses))
  exact ⟨new, congrArg State.responses ht, hnew rs⟩

/-! ### The bits that edges deliver (R78, R130, R131) -/

/-- Bits shifted in one after another: the last one ends at bit 0, and the old frame lies above them (R131). -/
theorem foldl_shiftIn_getLsbD (f : Frame) (bs : List Bool) {i : Nat} (hi : i < 40) :
    (bs.foldl shiftIn f).getLsbD i = bs.reverse.getD i (f.getLsbD (i - bs.length)) := by
  induction bs using List.reverseRecOn generalizing i with
  | nil => simp
  | append_singleton bs b ih =>
    rw [List.foldl_append, List.foldl_cons, List.foldl_nil, shiftIn_getLsbD _ _ _ hi]
    cases i with
    | zero => simp
    | succ i => simp [ih (show i < 40 by omega)]

@[simp] theorem length_bitsMsbFirst {n : Nat} (v : BitVec n) : (bitsMsbFirst v).length = n := by
  simp [bitsMsbFirst]

/-- The bits of a value, read from the last one back, are its bits from bit 0 up (R78). -/
theorem reverse_bitsMsbFirst_getD {n : Nat} (v : BitVec n) (d : Bool) {i : Nat} (hi : i < n) :
    (bitsMsbFirst v).reverse.getD i d = v.getLsbD i := by
  have hlen : i < (bitsMsbFirst v).reverse.length := by simpa using hi
  rw [List.getD_eq_getElem _ _ hlen]
  simp only [bitsMsbFirst, List.getElem_reverse, List.getElem_map, List.getElem_range, List.length_map,
    List.length_range]
  congr 1
  omega

/-- The forty bits of a value replace whatever FRAME held (R78, R131). -/
theorem foldl_shiftIn_bitsMsbFirst (f v : Frame) : (bitsMsbFirst v).foldl shiftIn f = v :=
  BitVec.eq_of_getLsbD_eq fun i hi => by
    rw [foldl_shiftIn_getLsbD f _ hi, reverse_bitsMsbFirst_getD v _ hi]

/-- A falling edge in interrupt-input mode runs EDGE (R173). -/
theorem step_fall_of_inputIrq {s : State} {rest : List Event} (hpin : s.pinMode = .inputIrq)
    (hs : s.schedule = .fall :: rest) : step s = .next (captureEdge { s with schedule := rest }) := by
  have hdisp : ({ s with schedule := rest } : State).edgeDispatched = true := (edgeDispatched_iff _).mpr (.inl hpin)
  rw [step_cons hs]
  exact (fallingEdge_eq _).trans (by rw [if_pos hdisp])

/-- One interval and its falling edge in interrupt-input mode: TICK, then EDGE (R130, R171, R173). -/
theorem runSteps_interval {s : State} {k : Nat} {rest : List Event} (hpin : s.pinMode = .inputIrq)
    (hs : s.schedule = .tick k :: .fall :: rest) :
    runSteps 2 s = .next { s with schedule := rest, frame := shiftIn s.frame (decodedBit s.params.bitThreshold (s.cnt + BitVec.ofNat CW k)), bitcnt := s.bitcnt + 1, cnt := 0 } := by
  have htick : step s = .next { s with schedule := .fall :: rest, cnt := s.cnt + BitVec.ofNat CW k } := step_cons hs
  rw [runSteps_succ_of_next htick]
  refine runSteps_succ_of_next (step_fall_of_inputIrq ?_ ?_) 0
  · exact hpin
  · rfl

/-- Intervals and their falling edges in interrupt-input mode, by induction on the intervals: each is decoded from
CNT = 0, shifted in and counted (R131). -/
theorem runSteps_intervals {s : State} {ks : List Nat} {rest : List Event} (hpin : s.pinMode = .inputIrq)
    (hcnt : s.cnt = 0) (hs : s.schedule = ks.flatMap (fun k => [Event.tick k, Event.fall]) ++ rest) :
    runSteps (2 * ks.length) s = .next { s with schedule := rest, frame := (ks.map fun k => decodedBit s.params.bitThreshold (BitVec.ofNat CW k)).foldl shiftIn s.frame, bitcnt := s.bitcnt + BitVec.ofNat BW ks.length } := by
  induction ks generalizing s with
  | nil =>
    have hrest : s.schedule = rest := hs
    simp [← hrest]
  | cons k ks ih =>
    have hfirst := runSteps_interval hpin (by simpa using hs)
    rw [hcnt, show 0 + BitVec.ofNat CW k = BitVec.ofNat CW k from BitVec.zero_add _] at hfirst
    have hcount : s.bitcnt + 1 + BitVec.ofNat BW ks.length = s.bitcnt + BitVec.ofNat BW (ks.length + 1) := by
      rw [BitVec.add_assoc, BitVec.add_comm 1, BitVec.ofNat_add]
      rfl
    rw [List.length_cons, Nat.mul_succ, Nat.add_comm, runSteps_add hfirst, ih]
    · rw [hcount, hcnt, List.map_cons, List.foldl_cons]
    · exact hpin
    · rfl
    · rfl

/-- The agents' steps of a list of bits are intervals of 84 and 86 ticks, each with its falling edge (R78). -/
theorem flatMap_bitEvents (bs : List Bool) : bs.flatMap bitEvents =
    (bs.map fun b => if b then 86 else 84).flatMap fun k => [Event.tick k, Event.fall] := by
  rw [List.flatMap_map]
  rfl

/-- At BIT_THRESHOLD = 85 the intervals of BIT0 and BIT1 decode to 0 and 1 (R78). -/
theorem decodedBit_bitInterval (b : Bool) : decodedBit 85 (BitVec.ofNat CW (if b then 86 else 84)) = b := by
  cases b <;> decide

/-- Settles O30: the forty intervals of the pseudo-instruction decode to the bits of `v`, and shifting them in replaces
the frame. -/
theorem frame40DeliversTheFrame : Obligations.Frame40DeliversTheFrame := by
  intro s v rest hpin hcnt hthreshold hs
  have hintervals : s.schedule = ((bitsMsbFirst v).map fun b => if b then 86 else 84).flatMap
      (fun k => [Event.tick k, Event.fall]) ++ rest := by
    rw [hs, ← flatMap_bitEvents]
    simp [assemble, Line.events]
  have hrun := runSteps_intervals hpin hcnt hintervals
  simp only [List.map_map, List.length_map, length_bitsMsbFirst, Function.comp_def, hthreshold,
    decodedBit_bitInterval, List.map_id', foldl_shiftIn_bitsMsbFirst] at hrun
  exact hrun

end Sys2Proof.Machine

/-! # State machine: INITIALIZE, REQUEST and POLL, and the length of a cycle (40_state_machine.md R100 to R112) -/

namespace Sys2Proof.Machine

/-! ### POLL, one equation for each row of the state table (R103 to R110) -/

section PollRows
variable {s : State}

theorem exec_poll_of_idle (hs : s.state = .idle) : exec .poll s = .next s := by
  simp only [exec, execPoll, hs, pollIdle]

theorem exec_poll_of_init (hs : s.state = .init) :
    exec .poll s = .next { s with pinMode := .output, pinLevel := .high, state := .idle } := by
  simp only [exec, execPoll, hs]
  rfl

theorem exec_poll_of_startcommInit (hs : s.state = .startcommInit) :
    exec .poll s = .next { s with bitcnt := 0, pinLevel := .low, snap := s.now, state := .startcommDelay } := by
  simp only [exec, execPoll, hs]
  rfl

theorem exec_poll_of_startcommDelay_exit (hs : s.state = .startcommDelay) (hel : s.params.tStart ≤ s.el) :
    exec .poll s = .next { s with pinLevel := .high, frame := 0, pinMode := .inputIrq, cnt := 0, state := .startcommEnd } := by
  simp only [exec, execPoll, hs, pollStartcommDelay, if_pos hel]
  rfl

theorem exec_poll_of_startcommDelay_wait (hs : s.state = .startcommDelay) (hel : s.el < s.params.tStart) :
    exec .poll s = .next s := by
  simp only [exec, execPoll, hs, pollStartcommDelay, if_neg (Nat.not_le.mpr hel)]

theorem exec_poll_of_startcommEnd (hs : s.state = .startcommEnd) :
    exec .poll s = .next { s with snap := s.now, state := .rxData } := by
  simp only [exec, execPoll, hs]
  rfl

theorem exec_poll_of_rxData_exit (hs : s.state = .rxData)
    (hend : s.params.tRx ≤ s.el ∨ s.params.nBits ≤ s.bitcnt.toNat) :
    exec .poll s = .next { s with state := .evalData } := by
  simp only [exec, execPoll, hs, pollRxData, if_pos hend]
  rfl

theorem exec_poll_of_rxData_wait (hs : s.state = .rxData)
    (hwait : ¬ (s.params.tRx ≤ s.el ∨ s.params.nBits ≤ s.bitcnt.toNat)) : exec .poll s = .next s := by
  simp only [exec, execPoll, hs, pollRxData, if_neg hwait]

theorem exec_poll_of_evalData (hs : s.state = .evalData) :
    exec .poll s = .next { s.evaluate with state := .init } := by
  simp only [exec, execPoll, hs]
  rfl

theorem exec_poll_of_unrecognized (hs : s.state = .unrecognized) :
    exec .poll s = .next { s with state := .init } := by
  simp only [exec, execPoll, hs]
  rfl

end PollRows

/-! ### The rows as the spec states them -/

/-- Settles O14: an output pin dispatches no falling edge, so only SPURIOUS_EDGES is left of the dispatch condition. -/
theorem initializeResetsStateAndPin : Obligations.InitializeResetsStateAndPin := by
  refine fun s => ⟨rfl, rfl, fun t h => ?_⟩
  cases h
  rfl

/-- Settles O15: the two equations of REQUEST, from IDLE and from any other STATE. -/
theorem requestStartsOnlyFromIdle : Obligations.RequestStartsOnlyFromIdle :=
  fun _ => ⟨rfl, exec_request_of_idle, exec_request_of_ne_idle⟩

/-- Settles O17: the row of IDLE. -/
theorem pollInIdle : Obligations.PollInIdle := fun _ => exec_poll_of_idle

/-- Settles O18: the row of INIT. -/
theorem pollInInit : Obligations.PollInInit := fun _ => exec_poll_of_init

/-- Settles O19: the pin invariant has PIN_MODE = OUTPUT in STARTCOMM_INIT. -/
theorem pollInStartcommInit : Obligations.PollInStartcommInit := by
  refine fun s hs => ⟨exec_poll_of_startcommInit hs, ?_⟩
  rintro ⟨-, -, -, -, houtput, -⟩
  exact (houtput (.inr hs)).1

/-- Settles O20: the number compared with T_START is the elapsed time. -/
theorem pollInStartcommDelay : Obligations.PollInStartcommDelay := by
  intro s hs
  rw [← el_eq_mod]
  exact ⟨exec_poll_of_startcommDelay_exit hs, exec_poll_of_startcommDelay_wait hs⟩

/-- Settles O21: the row of STARTCOMM_END. -/
theorem pollInStartcommEnd : Obligations.PollInStartcommEnd := fun _ => exec_poll_of_startcommEnd

/-- Settles O22: the number compared with T_RX is the elapsed time, and the two clauses exclude each other. -/
theorem pollInRxData : Obligations.PollInRxData := by
  intro s hs
  rw [← el_eq_mod]
  exact ⟨exec_poll_of_rxData_exit hs, fun hwait => exec_poll_of_rxData_wait hs (by omega)⟩

/-- Settles O24: the recovery leaves STATE = INIT, from where the next POLL is the INIT POLL. -/
theorem pollRecoversUnrecognizedState : Obligations.PollRecoversUnrecognizedState :=
  fun _ hs => ⟨exec_poll_of_unrecognized hs, exec_poll_of_init rfl⟩

/-- Settles O23: the numeric checksum, short-frame test and decision are the model's own, and a commit takes the byte
fields 2, 1 and 4 of FRAME. -/
theorem pollInEvalDataEvaluates : Obligations.PollInEvalDataEvaluates := by
  intro s ok short commit hs hok hshort hcommit
  have hok : ok = checksumOk s.frame := hok.trans (checksumOk_eq_decide _).symm
  have hshort : short = s.short := hshort
  have hcommit : commit = s.commits := by
    rw [hcommit, State.commits, ← hok, ← hshort]
    cases s.params.commitPolicy <;> rfl
  refine ⟨_, exec_poll_of_evalData hs, ?_⟩
  rw [evaluate_eq, ← hok, ← hshort, ← hcommit]
  refine ⟨outcomeWord_toNat _ _ _, ?_, ?_, rfl⟩
  · rintro rfl
    exact ⟨byteField_toNat 2 _, byteField_toNat 1 _, byteField_toNat 4 _⟩
  · rintro rfl
    exact ⟨rfl, rfl, rfl⟩

/-- Settles O25: each value of STATE has its row, and a row with an exit condition has two edges. -/
theorem pollMovesAlongTheTable : Obligations.PollMovesAlongTheTable := by
  intro s
  cases hs : s.state with
  | init => exact ⟨_, exec_poll_of_init hs, by simp⟩
  | idle => exact ⟨s, exec_poll_of_idle hs, by simp [hs]⟩
  | startcommInit => exact ⟨_, exec_poll_of_startcommInit hs, by simp⟩
  | startcommDelay =>
    by_cases hel : s.params.tStart ≤ s.el
    · exact ⟨_, exec_poll_of_startcommDelay_exit hs hel, by simp⟩
    · exact ⟨s, exec_poll_of_startcommDelay_wait hs (Nat.not_le.mp hel), by simp [hs]⟩
  | startcommEnd => exact ⟨_, exec_poll_of_startcommEnd hs, by simp⟩
  | rxData =>
    by_cases hend : s.params.tRx ≤ s.el ∨ s.params.nBits ≤ s.bitcnt.toNat
    · exact ⟨_, exec_poll_of_rxData_exit hs hend, by simp⟩
    · exact ⟨s, exec_poll_of_rxData_wait hs hend, by simp [hs]⟩
  | evalData => exact ⟨_, exec_poll_of_evalData hs, by simp⟩
  | unrecognized => exact ⟨_, exec_poll_of_unrecognized hs, by simp⟩

/-! ### POLL and TIME as the next agent step (R58, R111, R170) -/

section Runs
variable {s : State} {es rest : List Event}

theorem step_poll (hs : s.schedule = .command 0x03 :: rest) : step s = exec .poll { s with schedule := rest } :=
  stepRunsTheDecodedOperation s 0x03 rest .poll hs rfl

theorem step_time {k : Nat} (hs : s.schedule = .time k :: rest) :
    step s = .next { s with schedule := rest, now := s.now + BitVec.ofNat TW k } :=
  step_cons hs

/-- A burst of the environment and then a POLL: the POLL runs in a state in which the burst has touched nothing but the
capture registers and NOW (R33). -/
theorem runSteps_environment_poll (henv : ∀ e ∈ es, e.isEnvironment = true)
    (hs : s.schedule = es ++ .command 0x03 :: rest) :
    ∃ u, u = { s with schedule := rest, frame := u.frame, bitcnt := u.bitcnt, cnt := u.cnt, now := u.now } ∧
      ∀ v, exec .poll u = .next v → runSteps (es.length + 1) s = .next v := by
  obtain ⟨t, hrun, ht⟩ := environmentChangesOnlyCaptureState s es _ henv hs
  refine ⟨{ t with schedule := rest }, by rw [ht], fun v hv => ?_⟩
  have hstep : step t = .next v := (step_poll (by rw [ht])).trans hv
  rw [runSteps_add hrun, runSteps_succ_of_next hstep, runSteps_zero]

end Runs

/-- Settles O57: neither burst of the environment touches STATE, so the POLLs after them are those of EVAL_DATA and
INIT. -/
theorem timeoutReachesIdleInThreePolls : Obligations.TimeoutReachesIdleInThreePolls := by
  intro s es fs rest hst htimeout hes hfs hs
  have hel : s.params.tRx ≤ s.el := by rw [el_eq_mod]; exact htimeout
  have hrx : step s = .next { s with schedule := es ++ .command 0x03 :: (fs ++ .command 0x03 :: rest), state := .evalData } :=
    (step_poll hs).trans (exec_poll_of_rxData_exit hst (.inl hel))
  obtain ⟨u, hu, heval⟩ := runSteps_environment_poll (s := { s with schedule := _, state := .evalData }) hes rfl
  have huState : u.state = .evalData := by rw [hu]
  have huSchedule : u.schedule = fs ++ .command 0x03 :: rest := by rw [hu]
  obtain ⟨v, hv, hinit⟩ := runSteps_environment_poll (s := { u.evaluate with state := .init }) hfs
    (by rw [evaluate_eq]; exact huSchedule)
  have hvState : v.state = .init := by rw [hv]
  have hvSchedule : v.schedule = rest := by rw [hv]
  exact ⟨_, _, _, runSteps_succ_of_next hrx 0, rfl, heval _ (exec_poll_of_evalData huState), rfl,
    hinit _ (exec_poll_of_init hvState), rfl, rfl, rfl, hvSchedule⟩

/-! ### The lower bound (R111)

`ProtocolState.pollsToIdle` is a potential: INITIALIZE and power loss aside, a POLL lowers it by at most one and nothing
else lowers it. -/

section LowerBound
variable {s t : State} {e : Event} {es rest : List Event}

theorem pollEffect_pollsToIdle_le (h : PollEffect s t) : s.state.pollsToIdle ≤ t.state.pollsToIdle + 1 := by
  cases h with
  | init hs | startcommInit hs | delayExit hs | startcommEnd hs | rxExit hs | evalData hs | recovery hs =>
    simp [hs, ProtocolState.pollsToIdle]

theorem stepEffect_pollsToIdle_le (h : StepEffect s e t) (hinit : e ≠ .command 0x01)
    (hpow : ∀ n c, e ≠ .powerCycle n c) :
    s.state.pollsToIdle ≤ t.state.pollsToIdle + if e.isPoll then 1 else 0 := by
  cases h with
  | initialise => exact absurd rfl hinit
  | powerOn n c => exact absurd rfl (hpow n c)
  | poll hp => exact pollEffect_pollsToIdle_le hp
  | request hidle => rw [hidle]; exact Nat.zero_le _
  | edge | time | now | tick | quiet => exact Nat.le_add_right _ _

/-- A run without INITIALIZE and power loss has as many POLLs as it lowers the potential, by induction on its steps. -/
theorem runSteps_pollsToIdle_le (hs : s.schedule = es ++ rest)
    (hes : ∀ e ∈ es, e ≠ .command 0x01 ∧ ∀ n c, e ≠ .powerCycle n c) (h : runSteps es.length s = .next t) :
    s.state.pollsToIdle ≤ t.state.pollsToIdle + es.countP Event.isPoll := by
  induction es generalizing s with
  | nil => cases h; exact Nat.le_add_right _ _
  | cons e es ih =>
    obtain ⟨⟨hinit, hpow⟩, hes⟩ := List.forall_mem_cons.mp hes
    cases hu : runEvent e { s with schedule := es ++ rest } with
    | fault r => cases r
    | refused r => simp [runSteps, step_cons hs, hu] at h
    | next u =>
      rw [List.length_cons, runSteps_succ_of_next ((step_cons hs).trans hu)] at h
      have hfirst := stepEffect_pollsToIdle_le (runEvent_effect hu) hinit hpow
      have hothers := ih (runEvent_schedule hu) hes h
      rw [List.countP_cons]
      exact hfirst.trans (by omega)

end LowerBound

/-- Settles O58: the potential is 6 in STARTCOMM_INIT and 0 in IDLE. -/
theorem cycleTakesAtLeastSixPolls : Obligations.CycleTakesAtLeastSixPolls := by
  intro s t es rest hst hs hes hrun hidle
  have h := runSteps_pollsToIdle_le hs hes hrun
  rw [hst, hidle, List.countP_eq_length_filter] at h
  simpa [ProtocolState.pollsToIdle] using h

/-! ### The bound is reached (R111, R112)

The cycle in three parts: the low pulse, the receive window that ends at its timeout, and the two POLLs from EVAL_DATA
to IDLE. -/

section Cycle
variable {s : State} {rest : List Event}

/-- A wait of `k` after the snapshot is an elapsed time of `k`, when `k` fits in NOW (R25, R170). -/
theorem elapsed_after_wait (now : TimeValue) {k : Nat} (hk : k < 2 ^ TW) :
    elapsed (now + BitVec.ofNat TW k) now = k := by
  have hself : elapsed now now = 0 := by simp [elapsed]
  rw [elapsed_add, hself, Nat.zero_add, Nat.mod_eq_of_lt hk]

/-- The low pulse of exactly T_START (R105, R106). -/
theorem runSteps_startPulse (hst : s.state = .startcommInit) (hfits : s.params.tStart < 2 ^ TW)
    (hs : s.schedule = .command 0x03 :: .time s.params.tStart :: .command 0x03 :: rest) :
    runSteps 3 s = .next { s with schedule := rest, bitcnt := 0, snap := s.now, now := s.now + BitVec.ofNat TW s.params.tStart, pinLevel := .high, frame := 0, pinMode := .inputIrq, cnt := 0, state := .startcommEnd } := by
  rw [runSteps_succ_of_next ((step_poll hs).trans (exec_poll_of_startcommInit hst)),
    runSteps_succ_of_next (step_time rfl)]
  exact runSteps_succ_of_next ((step_poll rfl).trans
    (exec_poll_of_startcommDelay_exit rfl (elapsed_after_wait s.now hfits).ge)) 0

/-- The receive window that ends at the timeout of exactly T_RX (R107, R108). -/
theorem runSteps_receiveTimeout (hst : s.state = .startcommEnd) (hfits : s.params.tRx < 2 ^ TW)
    (hs : s.schedule = .command 0x03 :: .time s.params.tRx :: .command 0x03 :: rest) :
    runSteps 3 s = .next { s with schedule := rest, snap := s.now, now := s.now + BitVec.ofNat TW s.params.tRx, state := .evalData } := by
  rw [runSteps_succ_of_next ((step_poll hs).trans (exec_poll_of_startcommEnd hst)),
    runSteps_succ_of_next (step_time rfl)]
  exact runSteps_succ_of_next ((step_poll rfl).trans
    (exec_poll_of_rxData_exit rfl (.inl (elapsed_after_wait s.now hfits).ge))) 0

/-- From EVAL_DATA two POLLs evaluate the frame and release the line (R104, R109). -/
theorem runSteps_evaluate_release (hst : s.state = .evalData)
    (hs : s.schedule = .command 0x03 :: .command 0x03 :: rest) :
    runSteps 2 s = .next { s.evaluate with schedule := rest, pinMode := .output, pinLevel := .high, state := .idle } := by
  rw [runSteps_succ_of_next ((step_poll hs).trans (exec_poll_of_evalData hst)), evaluate_eq,
    evaluate_eq s]
  exact runSteps_succ_of_next ((step_poll rfl).trans (exec_poll_of_init rfl)) 0

/-- From STARTCOMM_END back to IDLE; EVAL_DATA leaves a word of R147, whose DONE bit is 1. -/
theorem runSteps_timedOutReading (hst : s.state = .startcommEnd) (hfits : s.params.tRx < 2 ^ TW)
    (hs : s.schedule = .command 0x03 :: .time s.params.tRx :: .command 0x03 :: .command 0x03 :: .command 0x03 :: rest) :
    ∃ t, runSteps 5 s = .next t ∧ t.state = .idle ∧ t.pinMode = .output ∧ t.pinLevel = .high ∧
      t.outcome.getLsbD 0 = true ∧ t.schedule = rest :=
  ⟨_, (runSteps_add (runSteps_receiveTimeout hst hfits hs)).trans (runSteps_evaluate_release rfl rfl), rfl, rfl, rfl,
    outcomeDone_outcomeWord _ _ _, rfl⟩

end Cycle

/-- Settles O59: the low pulse ends in STARTCOMM_END, and the rest of the cycle leads from there to IDLE. -/
theorem cycleOfSixPollsReachesIdle : Obligations.CycleOfSixPollsReachesIdle := by
  intro s rest hst hstart hrx hs
  rw [show 8 = 3 + 5 from rfl, runSteps_add (runSteps_startPulse hst hstart hs)]
  exact runSteps_timedOutReading rfl hrx rfl

end Sys2Proof.Machine

/-! # Edge capture: what EDGE writes and reads, and the frame that a run of edges leaves (41_edge_capture.md R130 to R132) -/

namespace Sys2Proof.Machine

/-! ### EDGE as an operation (R130, R132) -/

/-- EDGE answers a next state in every state (R130, R180). -/
theorem exec_edge (s : State) : exec .edge s = .next (captureEdge s) := rfl

/-- The decoded bit as a number (R130). -/
theorem decodedBit_toNat (n : Nat) (c : Count) : (decodedBit n c).toNat = if c.toNat > n then 1 else 0 := by
  rw [decodedBit, Bool.toNat, Bool.cond_decide]

/-- An edge captured at another NOW and SNAP is the same capture (R132). -/
theorem captureEdge_now_snap (s : State) (n m : TimeValue) :
    captureEdge { s with now := n, snap := m } = { captureEdge s with now := n, snap := m } := by
  simp only [captureEdge_eq]

/-- Settles O26: the shift, the decoded bit and the count on numeric values. -/
theorem edgeCapturesOneBit : Obligations.EdgeCapturesOneBit := by
  intro s
  refine ⟨encode_edge, captureEdge s, exec_edge s, ?frame, ?bitcnt, rfl, rfl⟩
  case frame => rw [captureEdge_eq, shiftIn_toNat, decodedBit_toNat]
  case bitcnt => rw [captureEdge_eq, BitVec.toNat_add]; rfl

/-- Settles O27: capturing an edge and replacing NOW and SNAP commute. -/
theorem edgeIgnoresElapsedTime : Obligations.EdgeIgnoresElapsedTime := fun s n m =>
  ⟨captureEdge s, exec_edge s, (exec_edge _).trans (congrArg Host.Outcome.next (captureEdge_now_snap s n m))⟩

/-! ### The frame that a run of intervals leaves (R131) -/

/-- An interval of `k` ticks from CNT = 0 decodes to 1 when `k` modulo 2^CW exceeds the threshold (R130, R171). -/
theorem decodedBit_ofNat (n k : Nat) : decodedBit n (BitVec.ofNat CW k) = decide (k % 2 ^ CW > n) := by
  rw [decodedBit, BitVec.toNat_ofNat]

/-- The decoded bits read from the last one back: those of the intervals read from the last one back, and 0 beyond the
first (R131). -/
theorem reverse_decodedBits_getD (n : Nat) (ks : List Nat) (i : Nat) :
    (ks.map fun k => decodedBit n (BitVec.ofNat CW k)).reverse.getD i false =
      if i < ks.length then decide (ks.reverse.getD i 0 % 2 ^ CW > n) else false := by
  rw [← List.map_reverse]
  split
  case isTrue hi =>
    have hrev : i < ks.reverse.length := by simpa using hi
    rw [List.getD_eq_getElem _ _ (by simpa using hi), List.getElem_map, decodedBit_ofNat, List.getD_eq_getElem _ _ hrev]
  case isFalse hi => exact List.getD_eq_default _ _ (by simpa using hi)

/-- Settles O29: the intervals shift their decoded bits into an empty FRAME, so bit `i` is that of the `i`-th interval
from the end. -/
theorem edgesFillTheFrame : Obligations.EdgesFillTheFrame := by
  intro s ks rest hpin hframe hcnt hs
  refine ⟨_, runSteps_intervals hpin hcnt hs, fun i hi => ?frame, ?bitcnt, ?rest⟩
  case frame =>
    have hzero (j : Nat) : s.frame.getLsbD j = false := by rw [hframe]; exact BitVec.getLsbD_zero
    rw [foldl_shiftIn_getLsbD _ _ hi, hzero, reverse_decodedBits_getD]
  case bitcnt => simp only [BitVec.toNat_add, BitVec.toNat_ofNat, Nat.add_mod_mod]
  case rest => rw [← hcnt]

end Sys2Proof.Machine

/-! # Validation: the commit decision, OUTCOME and the reading (42_validation.md R140 to R149) -/

namespace Sys2Proof.Machine

section Evaluate
variable {s : State}

/-! ### The short-frame test and the commit decision (R145, R146) -/

theorem short_eq_false_iff : s.short = false ↔ s.params.nBits ≤ s.bitcnt.toNat := by
  rw [State.short, shortFrame, decide_eq_false_iff_not, Nat.not_lt]

/-- R146 as a condition: ALWAYS commits every frame, the other policies a matching one, and STRICT_FULL only a matching
one that is not short. -/
theorem commits_iff : s.commits = true ↔ s.params.commitPolicy = .always ∨
    checksumOk s.frame = true ∧ (s.params.commitPolicy = .strictFull → s.short = false) := by
  rw [State.commits]
  cases s.params.commitPolicy <;> simp [commitDecision]

/-- A matching short frame is withheld under STRICT_FULL (R146; log entry 16). -/
theorem not_commits_of_short (hfull : s.params.commitPolicy = .strictFull) (hshort : s.short = true) :
    s.commits = false := by
  rw [Bool.eq_false_iff, ne_eq, commits_iff]
  simp [hfull, hshort]

/-- A frame whose checksum does not match is withheld unless the policy is ALWAYS (R146). -/
theorem not_commits_of_mismatch (hpolicy : s.params.commitPolicy ≠ .always) (hmismatch : checksumOk s.frame = false) :
    s.commits = false := by
  rw [Bool.eq_false_iff, ne_eq, commits_iff]
  simp [hpolicy, hmismatch]

/-! ### POLL in EVAL_DATA, one equation for each commit decision (R109, R148) -/

theorem exec_poll_of_evalData_commit (hs : s.state = .evalData) (hcommit : s.commits = true) :
    exec .poll s = .next { s with state := .init, outcome := outcomeWord true s.short (checksumOk s.frame), storedTInt := tInt s.frame, storedTDec := tDec s.frame, storedHInt := hInt s.frame } := by
  rw [exec_poll_of_evalData hs, evaluate_eq, hcommit]
  rfl

theorem exec_poll_of_evalData_withhold (hs : s.state = .evalData) (hcommit : s.commits = false) :
    exec .poll s = .next { s with state := .init, outcome := outcomeWord false s.short (checksumOk s.frame) } := by
  rw [exec_poll_of_evalData hs, evaluate_eq, hcommit]
  rfl

end Evaluate

/-! ### OUTCOME (R147) -/

theorem evaluate_outcome (s : State) :
    s.evaluate.outcome = outcomeWord s.commits s.short (checksumOk s.frame) := rfl

/-- Settles O48: EVAL_DATA writes `{commit, timeout, cksum_ok, 1}`, and each policy's commit decision gives its rows of
the table. -/
theorem outcomeTable : Obligations.OutcomeTable := by
  refine fun p n c => ⟨State.powerOn_outcome p n c, fun s hs =>
    ⟨_, exec_poll_of_evalData hs, (evaluate_outcome s).trans ?_⟩⟩
  rw [State.commits, State.short, shortFrame]
  generalize checksumOk s.frame = ok, decide (s.bitcnt.toNat < s.params.nBits) = short
  cases s.params.commitPolicy with
  | strict => revert ok short; decide
  | always => revert ok short; decide
  | strictFull => revert ok short; decide

/-! ### The empty frame (R143, conflict C1) -/

theorem checksumOk_zero : checksumOk 0 = true := by decide

/-- Settles O49: the empty frame is short and its checksum matches, so only STRICT_FULL withholds it. -/
theorem emptyFramePassesTheChecksum : Obligations.EmptyFramePassesTheChecksum := by
  intro s hs hframe hbitcnt hnBits
  have hok : checksumOk s.frame = true := by rw [hframe, checksumOk_zero]
  have hshort : s.short = true := by
    rw [← Bool.not_eq_false, short_eq_false_iff, hbitcnt]
    exact Nat.not_le.mpr hnBits
  constructor
  · intro hpolicy
    have hcommit : s.commits = true := commits_iff.mpr (.inr ⟨hok, fun hfull => absurd hfull hpolicy⟩)
    rw [exec_poll_of_evalData_commit hs hcommit, hshort, hok, hframe]
    rfl
  · intro hfull
    rw [exec_poll_of_evalData_withhold hs (not_commits_of_short hfull hshort), hshort, hok]
    rfl

/-! ### The checksum and the reading (R149) -/

/-- A frame of five byte fields matches when the last is the sum of the others (R141, R142). -/
theorem checksumOk_frameOf_iff {hi hd ti td ck : Byte} :
    checksumOk (frameOf hi hd ti td ck) = true ↔ ck = hi + hd + ti + td := by
  rw [checksumOk_frameOf, beq_iff_eq, eq_comm]

/-- Settles O50: under the premises of the first clause the frame is committed, under those of the second it is
withheld. -/
theorem checksumGatesTheReading : Obligations.ChecksumGatesTheReading := by
  intro s hi hd ti td ck hs hframe
  obtain ⟨t, ht⟩ := exec_next .poll s
  refine ⟨t, ht, fun hmatch hpolicy => ?_, fun hmismatch hpolicy => ?_⟩
  · have hok : checksumOk s.frame = true := by rw [hframe]; exact checksumOk_frameOf_iff.mpr hmatch
    have hcommit : s.commits = true := commits_iff.mpr (.inr ⟨hok, fun hfull =>
      short_eq_false_iff.mpr (hpolicy.resolve_left (· hfull))⟩)
    rw [exec_poll_of_evalData_commit hs hcommit, hframe] at ht
    cases ht
    exact ⟨tInt_frameOf .., tDec_frameOf .., hInt_frameOf ..⟩
  · have hbad : checksumOk s.frame = false := by
      rw [hframe]; exact Bool.eq_false_iff.mpr (mt checksumOk_frameOf_iff.mp hmismatch)
    rw [exec_poll_of_evalData_withhold hs (not_commits_of_mismatch hpolicy hbad)] at ht
    cases ht
    exact ⟨rfl, rfl, rfl⟩

/-- Refutes O51: under STRICT_FULL the matching frame of vector V49, with 39 bits counted, is short; it is withheld and
StoredReading keeps its zeros (R146; log entry 16). -/
theorem not_matchingFrameIsStoredUnderEveryPolicy : ¬ Obligations.MatchingFrameIsStoredUnderEveryPolicy := by
  intro h
  obtain ⟨t, ht, hti, -, -⟩ := h
    { State.powerOn { commitPolicy := .strictFull } 0 0 with state := .evalData, frame := frameOf 25 0 22 0 47, bitcnt := 39 }
    25 0 22 0 47 rfl rfl (by decide)
  rw [exec_poll_of_evalData_withhold rfl (not_commits_of_short rfl (by decide))] at ht
  cases ht
  exact absurd hti (by decide)

/-! ### From the edges of a frame to the reading (R78, R131, R149) -/

section Delivery
variable {s : State} {v : Frame} {rest : List Event}

/-- In RX_DATA with all bits counted and a matching frame, two POLLs store its fields under every policy (R108, R109,
R146). -/
theorem runSteps_receive_evaluate (hst : s.state = .rxData) (hfull : s.params.nBits ≤ s.bitcnt.toNat)
    (hok : checksumOk s.frame = true) (hs : s.schedule = .command 0x03 :: .command 0x03 :: rest) :
    runSteps 2 s = .next { s with schedule := rest, state := .init, outcome := 0b1011, storedTInt := tInt s.frame, storedTDec := tDec s.frame, storedHInt := hInt s.frame } := by
  have hshort : s.short = false := short_eq_false_iff.mpr hfull
  have hexit : step s = .next { s with schedule := .command 0x03 :: rest, state := .evalData } :=
    (step_poll hs).trans (exec_poll_of_rxData_exit hst (.inr hfull))
  have hcommit : ({ s with schedule := rest, state := .evalData } : State).commits = true :=
    commits_iff.mpr (.inr ⟨hok, fun _ => hshort⟩)
  have heval := exec_poll_of_evalData_commit (s := { s with schedule := rest, state := .evalData }) rfl hcommit
  have houtcome : outcomeWord true s.short (checksumOk s.frame) = 0b1011 := by rw [hshort, hok]; rfl
  rw [runSteps_succ_of_next hexit, ← houtcome]
  exact runSteps_succ_of_next ((step_poll rfl).trans heval) 0

/-- In RX_DATA at N_BITS = 40, the edges of FRAME40 and two POLLs store the fields of a matching frame (R78, R131,
R149). -/
theorem runSteps_frame40_evaluate (hst : s.state = .rxData) (hpin : s.pinMode = .inputIrq) (hcnt : s.cnt = 0)
    (hbitcnt : s.bitcnt = 0) (hthreshold : s.params.bitThreshold = 85) (hnBits : s.params.nBits = 40)
    (hok : checksumOk v = true) (hs : s.schedule = assemble [.frame40 v, .op .poll, .op .poll] ++ rest) :
    runSteps 82 s = .next { s with schedule := rest, state := .init, bitcnt := 40, frame := v, outcome := 0b1011, storedTInt := tInt v, storedTDec := tDec v, storedHInt := hInt v } := by
  have hedges := frame40DeliversTheFrame s v (.command 0x03 :: .command 0x03 :: rest) hpin hcnt hthreshold
    (by rw [hs]; simp [assemble, Line.events])
  rw [hbitcnt] at hedges
  have hpolls := runSteps_receive_evaluate
    (s := { s with schedule := .command 0x03 :: .command 0x03 :: rest, frame := v, bitcnt := 40 }) hst hnBits.le hok rfl
  exact (runSteps_add hedges).trans hpolls

end Delivery

/-- Settles O52: the checksum of the delivered frame matches, and its fields are the bytes it was made of. -/
theorem deliveredFrameIsStored : Obligations.DeliveredFrameIsStored := by
  intro s hi hd ti td rest hst hpin hcnt hbitcnt hthreshold hnBits hs
  rw [runSteps_frame40_evaluate hst hpin hcnt hbitcnt hthreshold hnBits (checksumOk_frameOf_iff.mpr rfl) hs,
    tInt_frameOf, tDec_frameOf, hInt_frameOf]

end Sys2Proof.Machine

/-! # Accessors: what each answers and leaves unchanged (43_accessors.md R160 to R162) -/

namespace Sys2Proof.Machine

/-! ### The accessors as operations -/

/-- GET_TEMP only responds, with both bytes read in the one state (R160). -/
theorem exec_getTemp (s : State) :
    exec .getTemp s = .next (s.respond (.temp (tempWord s.storedTInt s.storedTDec))) := rfl

/-- GET_HUM only responds; no decimal byte is stored for it to return (R161). -/
theorem exec_getHum (s : State) : exec .getHum s = .next (s.respond (.hum s.storedHInt)) := rfl

/-- GET_STATUS only responds (R162). -/
theorem exec_getStatus (s : State) :
    exec .getStatus s = .next (s.respond (.status (statusWord s.state s.outcome))) := rfl

/-! ### The accessors as the spec states them -/

/-- Settles O31: the response's number has the integer byte above the decimal byte. -/
theorem getTempAnswersStoredTemperature : Obligations.GetTempAnswersStoredTemperature := fun s =>
  ⟨encode_getTemp, tempWord s.storedTInt s.storedTDec, tempWord_toNat _ _, exec_getTemp s⟩

/-- Settles O32: the response is the stored integer byte itself. -/
theorem getHumAnswersStoredHumidity : Obligations.GetHumAnswersStoredHumidity := fun s =>
  ⟨encode_getHum, exec_getHum s⟩

/-- Settles O33: the response's number has the code of STATE above OUTCOME, and each value of STATE has its code of
R21. -/
theorem getStatusAnswersStateAndOutcome : Obligations.GetStatusAnswersStateAndOutcome := by
  intro s
  refine ⟨encode_getStatus, statusWord s.state s.outcome, ?_, exec_getStatus s⟩
  rw [statusWord_toNat]
  cases s.state <;> rfl

end Sys2Proof.Machine

/-! # Port and environment: the invariant of the machine, the clocks, dispatch and the line (44_port_environment.md R170
to R175) -/

namespace Sys2Proof.Machine

/-! ### The pin invariant (R173, R104 to R106, R21)

The pin invariant speaks of STATE, PIN_MODE and PIN_LEVEL alone, so an effect that writes none of them keeps it as it
stands; the others leave one of the configurations it allows. -/

section PinInvariant
variable {s t : State} {e : Event}

/-- Inside the interrupt window the pin is an interrupt input and the latch is high (R106, R173). -/
theorem pin_of_window (hpin : s.PinInv) (hs : s.state = .startcommEnd ∨ s.state = .rxData ∨ s.state = .evalData) :
    s.pinMode = .inputIrq ∧ s.pinLevel = .high := by
  obtain ⟨-, -, hirq, hwindow, -, -⟩ := hpin
  have hmode := hwindow hs
  exact ⟨hmode, (hirq hmode).1⟩

/-- Between the INIT POLL and the start pulse the pin is an output and the latch is high (R104, R105). -/
theorem pin_of_idle_or_startcommInit (hpin : s.PinInv) (hs : s.state = .idle ∨ s.state = .startcommInit) :
    s.pinMode = .output ∧ s.pinLevel = .high := by
  obtain ⟨-, -, -, -, hreleased, -⟩ := hpin
  exact hreleased hs

/-- POLL opens the interrupt window at the STARTCOMM_DELAY exit and closes it in INIT (R104 to R109). -/
theorem pollEffect_keeps_pinInv (hpin : s.PinInv) (hp : PollEffect s t) : t.PinInv := by
  cases hp with
  | init => simp [State.PinInv]
  | startcommInit hs => simp [State.PinInv, pin_of_idle_or_startcommInit hpin (.inr hs)]
  | delayExit => simp [State.PinInv]
  | startcommEnd hs => simp [State.PinInv, pin_of_window hpin (.inl hs)]
  | rxExit hs => simp [State.PinInv, pin_of_window hpin (.inr (.inl hs))]
  | evalData hs => simp [State.PinInv, pin_of_window hpin (.inr (.inr hs))]
  | recovery hs => exact absurd hs hpin.1

theorem stepEffect_keeps_pinInv (hpin : s.PinInv) (heff : StepEffect s e t) : t.PinInv := by
  cases heff with
  | initialise => simp [State.PinInv]
  | request hs => simp [State.PinInv, pin_of_idle_or_startcommInit hpin (.inl hs)]
  | poll hp => exact pollEffect_keeps_pinInv hpin hp
  | powerOn => simp [State.PinInv]
  | edge | time | now | tick | quiet => exact hpin

/-- Whatever the agents do, a step keeps the pin invariant. -/
theorem step_keeps_pinInv (hpin : s.PinInv) (h : step s = .next t) : t.PinInv := by
  obtain ⟨-, rfl⟩ | ⟨e, rest, -, heff⟩ := step_effect h
  · exact hpin
  · exact stepEffect_keeps_pinInv (s := { s with schedule := rest }) hpin heff

end PinInvariant

/-! ### The record invariant (R26, R27, R146, R147) -/

section RecordInvariant
variable {s t : State} {e : Event}

/-- The word Evaluate writes to OUTCOME holds the policy's own decision on the two flags beside it (R146, R147). -/
theorem recordInv_of_evaluated (hp : t.params = s.params)
    (ho : t.outcome = outcomeWord s.commits s.short (checksumOk s.frame)) : t.RecordInv := by
  simp [State.RecordInv, hp, ho, State.commits]

/-- Of the effects of a step, those of POLL in EVAL_DATA and of power-on write the record. -/
theorem stepEffect_keeps_recordInv (hrec : s.RecordInv) (heff : StepEffect s e t) : t.RecordInv := by
  cases heff with
  | poll hp =>
    cases hp with
    | evalData => exact recordInv_of_evaluated (s := s) rfl rfl
    | _ => exact hrec
  | powerOn => exact ⟨fun _ => ⟨rfl, rfl, rfl, rfl⟩, fun hdone => absurd hdone (by simp [outcomeDone])⟩
  | initialise | request | edge | time | now | tick | quiet => exact hrec

/-- Whatever the agents do, a step keeps the record invariant. -/
theorem step_keeps_recordInv (hrec : s.RecordInv) (h : step s = .next t) : t.RecordInv := by
  obtain ⟨-, rfl⟩ | ⟨e, rest, -, heff⟩ := step_effect h
  · exact hrec
  · exact stepEffect_keeps_recordInv (s := { s with schedule := rest }) hrec heff

end RecordInvariant

/-- Settles O53: the pin invariant and the record invariant are kept independently of each other. -/
theorem stepKeepsInvariant : Obligations.StepKeepsInvariant :=
  fun _ _ ⟨hpin, hrec⟩ h => ⟨step_keeps_pinInv hpin h, step_keeps_recordInv hrec h⟩

/-! ### The clocks (R170, R171) -/

/-- A register advanced by any amount counts modulo 2 to the power of its width (R15). -/
theorem toNat_add_ofNat {n : Nat} (x : BitVec n) (k : Nat) : (x + BitVec.ofNat n k).toNat = (x.toNat + k) % 2 ^ n := by
  rw [BitVec.toNat_add, BitVec.toNat_ofNat, Nat.add_mod_mod]

/-- Settles O8: TIME writes NOW alone. -/
theorem timeAdvancesNow : Obligations.TimeAdvancesNow :=
  fun _ _ _ hs => ⟨_, step_time hs, toNat_add_ofNat _ _, rfl⟩

theorem step_tick {s : State} {k : Nat} {rest : List Event} (hs : s.schedule = .tick k :: rest) :
    step s = .next { s with schedule := rest, cnt := s.cnt + BitVec.ofNat CW k } :=
  step_cons hs

/-- Settles O9: TICK writes CNT alone. -/
theorem tickAdvancesCounter : Obligations.TickAdvancesCounter :=
  fun _ _ _ hs => ⟨_, step_tick hs, toNat_add_ofNat _ _, rfl⟩

/-! ### Dispatch of a falling edge (R173, R174) -/

/-- Settles O11: `edgeDispatched` is the condition of R173, and it picks the branch. -/
theorem fallRunsEdgeWhenDispatched : Obligations.FallRunsEdgeWhenDispatched := by
  intro s rest hs
  rw [← edgeDispatched_iff]
  have hfall : step s =
      .next (if s.edgeDispatched then captureEdge { s with schedule := rest } else { s with schedule := rest }) :=
    (step_cons hs).trans (fallingEdge_eq _)
  refine ⟨fun hd => ?_, fun hd => ?_⟩
  · rw [hfall, if_pos hd, exec_edge]
  · rw [hfall, if_neg hd]

/-! ### The level on the line (R30, R175) -/

/-- The block drives the latch's level as an output, and nothing in the other two modes. -/
theorem drive_eq (s : State) : s.drive = if s.pinMode = .output then some s.pinLevel else none := by
  unfold State.drive
  cases s.pinMode <;> rfl

/-- Settles O13: neither of the other two modes is OUTPUT. -/
theorem lineDrivenOnlyAsOutput : Obligations.LineDrivenOnlyAsOutput := by
  refine fun s => ⟨fun hmode => ?_, fun hmode => ?_⟩
  · rw [drive_eq, if_pos hmode]
  · have hne : s.pinMode ≠ .output := by obtain hm | hm := hmode <;> simp [hm]
    rw [drive_eq, if_neg hne]

end Sys2Proof.Machine

/-! # Exceptions: the recording of faults, an accessor beside an edge, and power loss (60_exceptions.md R181, R187,
R197) -/

namespace Sys2Proof.Machine

/-! ### What a POLL detects and records (R181, R187) -/

section Faults
variable {s : State}

theorem pollDetects_timeout_of_evalData (hs : s.state = .evalData) : s.pollDetects .timeout = s.short := by
  simp [State.pollDetects, hs]

theorem pollDetects_checksum_of_evalData (hs : s.state = .evalData) :
    s.pollDetects .checksum = !checksumOk s.frame := by
  simp [State.pollDetects, hs]

theorem pollDetects_invalidState_iff : s.pollDetects .invalidState = true ↔ s.state = .unrecognized := by
  simp [State.pollDetects]

/-- Outside EVAL_DATA the only fault a POLL can detect is INVALID_STATE (R187). -/
theorem pollDetects_eq_false_of_ne_evalData (hs : s.state ≠ .evalData) {c : FaultCause} (hc : c ≠ .invalidState) :
    s.pollDetects c = false := by
  cases c with
  | timeout | checksum => simp [State.pollDetects, hs]
  | invalidState => exact absurd rfl hc

end Faults

/-- Evaluate records both of its faults, whatever it commits: a short frame in OUTCOME.TIMEOUT and the checksum's result
in OUTCOME.CKSUM_OK (R147, R181). -/
theorem evaluate_outcome_faultBits (s : State) :
    s.evaluate.outcome.getLsbD 2 = s.short ∧ s.evaluate.outcome.getLsbD 1 = checksumOk s.frame :=
  ⟨outcomeTimeout_outcomeWord _ _ _, outcomeCksumOk_outcomeWord _ _ _⟩

/-- Settles O47: POLL in EVAL_DATA writes the two bits from the tests that detect the two faults, and the recovery from
STATE = 7 writes STATE alone. -/
theorem faultsAreRecorded : Obligations.FaultsAreRecorded := by
  refine ⟨⟨rfl, rfl, rfl⟩, fun s => ?_⟩
  obtain ⟨t, ht⟩ := exec_next .poll s
  refine ⟨t, ht, fun hs => ?evalData, fun hinvalid => ?invalidState⟩
  case evalData =>
    rw [exec_poll_of_evalData hs] at ht
    cases ht
    obtain ⟨htimeout, hcksumOk⟩ := evaluate_outcome_faultBits s
    rw [pollDetects_timeout_of_evalData hs, pollDetects_checksum_of_evalData hs, Bool.not_not, Bool.eq_false_iff, ne_eq,
      pollDetects_invalidState_iff, hs]
    exact ⟨htimeout, hcksumOk, by simp⟩
  case invalidState =>
    have hs : s.state = .unrecognized := pollDetects_invalidState_iff.mp hinvalid
    have hne : s.state ≠ .evalData := by simp [hs]
    rw [exec_poll_of_unrecognized hs] at ht
    cases ht
    exact ⟨rfl, rfl, pollDetects_eq_false_of_ne_evalData hne (by simp),
      pollDetects_eq_false_of_ne_evalData hne (by simp)⟩

/-! ### An accessor and an edge in either order (R57, R187) -/

/-- A captured edge neither reads nor writes the responses (R188). -/
theorem captureEdge_respond (s : State) (r : Response) : captureEdge (s.respond r) = (captureEdge s).respond r := rfl

/-- An accessor gives the same response before an edge and after it: it reads none of FRAME, BITCNT and CNT, the
registers EDGE writes (R33, R57). -/
theorem exec_accessor_before_and_after_edge (s : State) {i : Instr} (hi : i = .getTemp ∨ i = .getHum ∨ i = .getStatus) :
    ∃ r, exec i s = .next (s.respond r) ∧ exec i (captureEdge s) = .next ((captureEdge s).respond r) := by
  obtain rfl | rfl | rfl := hi
  · exact ⟨_, exec_getTemp s, exec_getTemp (captureEdge s)⟩
  · exact ⟨_, exec_getHum s, exec_getHum (captureEdge s)⟩
  · exact ⟨_, exec_getStatus s, exec_getStatus (captureEdge s)⟩

/-- Settles O34: the accessor's response is the same in both orders, and adding it commutes with capturing the edge. -/
theorem accessorCommutesWithEdge : Obligations.AccessorCommutesWithEdge := by
  intro s i hi
  obtain ⟨r, hbefore, hafter⟩ := exec_accessor_before_and_after_edge s hi
  refine ⟨s.respond r, captureEdge s, (captureEdge s).respond r, hbefore, ?_, exec_edge s, hafter⟩
  rw [exec_edge, captureEdge_respond]

/-! ### Power loss (R197, R200; log entry 7) -/

theorem step_powerCycle {s : State} {n : TimeValue} {c : Count} {rest : List Event}
    (hs : s.schedule = .powerCycle n c :: rest) : step s = .next (({ s with schedule := rest } : State).powerCycled n c) :=
  step_cons hs

/-- Power-on reset of a running machine takes only the parameters, the schedule and the responses from the state before
it. -/
theorem powerCycled_eq (s : State) (n : TimeValue) (c : Count) : s.powerCycled n c =
    { params := s.params, state := .init, bitcnt := 0, frame := 0, snap := 0, storedTInt := 0, storedTDec := 0, storedHInt := 0, outcome := 0, pinMode := .unconfigured, pinLevel := .unknown, cnt := c, now := n, schedule := s.schedule, responses := s.responses } := rfl

/-- Settles O12: the step is power-on reset in the state without its entry. -/
theorem powerLossResetsRegisters : Obligations.PowerLossResetsRegisters := by
  intro s n c rest hs
  rw [step_powerCycle hs, powerCycled_eq]

end Sys2Proof.Machine

/-! # Reset and hazards: power-on, the parameters of the run, the host's low pulse, and the wrap of elapsed time
(70_reset_and_hazards.md R200, R201, R205, R207) -/

namespace Sys2Proof.Machine

/-! ### What no step writes: the parameters, and entries of the schedule (R58, R200) -/

section RunData
variable {s t : State} {e : Event}

theorem pollEffect_params (hp : PollEffect s t) : t.params = s.params := by
  cases hp <;> rfl

theorem stepEffect_params (heff : StepEffect s e t) : t.params = s.params := by
  cases heff with
  | poll hp => exact pollEffect_params hp
  | initialise | request | edge | time | now | tick | powerOn | quiet => rfl

theorem step_params (h : step s = .next t) : t.params = s.params := by
  obtain ⟨-, rfl⟩ | ⟨e, rest, -, heff⟩ := step_effect h
  · rfl
  · exact stepEffect_params (s := { s with schedule := rest }) heff

/-- A step can only take entries off the schedule. -/
theorem step_schedule_subset (h : step s = .next t) : t.schedule ⊆ s.schedule := by
  obtain ⟨-, rfl⟩ | ⟨e, rest, hs, hrun⟩ := step_next h
  · exact List.Subset.refl _
  · rw [runEvent_schedule hrun, hs]
    exact List.subset_cons_self e rest

end RunData

/-- Settles O44: not even power-on reset writes them. -/
theorem parametersAreFixed : Obligations.ParametersAreFixed := fun _ _ => step_params

/-! ### The host's low pulse (R106, R173, R174, R207) -/

section LowPulse
variable {s t : State} {e : Event}

/-- The port contract is about the parameters and the steps to come, and a step adds to neither. -/
theorem step_keeps_portContract (hport : s.PortContract) (h : step s = .next t) : t.PortContract := by
  obtain ⟨hspurious, hnoEdge⟩ := hport
  exact ⟨step_params h ▸ hspurious, fun e he => hnoEdge e (step_schedule_subset h he)⟩

/-- During the pulse the pin is an output, so a falling edge runs EDGE only where SPURIOUS_EDGES lets it. -/
theorem edgeDispatched_of_startcommDelay (hpin : s.PinInv) (hs : s.state = .startcommDelay) :
    s.edgeDispatched = s.params.spuriousEdges := by
  obtain ⟨-, -, -, -, -, hpulse⟩ := hpin
  simp [State.edgeDispatched, (hpulse hs).1]

/-- The POLL that takes STATE to STARTCOMM_DELAY starts the pulse, and clears BITCNT (R105). -/
theorem pollEffect_bitcnt_of_startcommDelay (hp : PollEffect s t) (ht : t.state = .startcommDelay) : t.bitcnt = 0 := by
  cases hp with
  | startcommInit => rfl
  | init | delayExit | startcommEnd | rxExit | evalData | recovery => cases ht

/-- Of the effects of a step, only an edge counts a bit, and through the port none is dispatched during the pulse. -/
theorem stepEffect_keeps_bitcnt_in_pulse (hpin : s.PinInv) (hspurious : s.params.spuriousEdges = false)
    (hcommand : e.isEdgeCommand = false) (hbitcnt : s.state = .startcommDelay → s.bitcnt = 0)
    (heff : StepEffect s e t) : t.state = .startcommDelay → t.bitcnt = 0 := by
  intro ht
  cases heff with
  | edge he =>
    obtain rfl | ⟨-, hdispatched⟩ := he
    · cases hcommand
    · rw [edgeDispatched_of_startcommDelay hpin ht, hspurious] at hdispatched
      cases hdispatched
  | poll hp => exact pollEffect_bitcnt_of_startcommDelay hp ht
  | initialise | request | powerOn => cases ht
  | time | now | tick | quiet => exact hbitcnt ht

theorem step_keeps_bitcnt_in_pulse (hpulse : s.PulseInv) (h : step s = .next t) :
    t.state = .startcommDelay → t.bitcnt = 0 := by
  obtain ⟨hpin, ⟨hspurious, hnoEdge⟩, hbitcnt⟩ := hpulse
  obtain ⟨-, rfl⟩ | ⟨e, rest, hs, heff⟩ := step_effect h
  · exact hbitcnt
  · have hcommand : e.isEdgeCommand = false := hnoEdge e (by simp [hs])
    exact stepEffect_keeps_bitcnt_in_pulse (s := { s with schedule := rest }) hpin hspurious hcommand hbitcnt heff

end LowPulse

/-- Settles O55: the pin invariant and the port contract are kept by themselves, and together they keep BITCNT at 0. -/
theorem stepKeepsPulseInvariant : Obligations.StepKeepsPulseInvariant := by
  intro s t hpulse h
  have ⟨hpin, hport, _⟩ := hpulse
  exact ⟨step_keeps_pinInv hpin h, step_keeps_portContract hport h, step_keeps_bitcnt_in_pulse hpulse h⟩

/-! ### Power-on reset (R200) -/

section PowerOn
variable (p : Params) (n : TimeValue) (c : Count)

/-- At power-on the pin is unconfigured and its level unknown, as the pin invariant allows in INIT (R29, R30). -/
theorem powerOn_pinInv : (State.powerOn p n c).PinInv := by
  simp [State.PinInv, State.powerOn]

/-- At power-on no EVAL_DATA has run, and the record is zero (R26, R27). -/
theorem powerOn_recordInv : (State.powerOn p n c).RecordInv := by
  simp [State.RecordInv, State.powerOn, outcomeDone]

theorem powerOn_inv : (State.powerOn p n c).Inv := ⟨powerOn_pinInv p n c, powerOn_recordInv p n c⟩

/-- At power-on no agent's step is left, so SPURIOUS_EDGES is all the port contract asks of the run. -/
theorem powerOn_pulseInv (hspurious : p.spuriousEdges = false) : (State.powerOn p n c).PulseInv :=
  ⟨powerOn_pinInv p n c, ⟨hspurious, fun _ he => absurd he List.not_mem_nil⟩, fun _ => rfl⟩

end PowerOn

/-- Settles O1: each value is the one `State.powerOn` writes. -/
theorem powerOnGivesResetValues : Obligations.PowerOnGivesResetValues :=
  fun _ _ _ => ⟨_, rfl, rfl, rfl, rfl, rfl, rfl, rfl, rfl, rfl, rfl, rfl, rfl, rfl, rfl, rfl⟩

/-- Settles O54: `State.reset` is power-on at the default parameters, whose SPURIOUS_EDGES is false. -/
theorem powerOnMeetsInvariant : Obligations.PowerOnMeetsInvariant :=
  ⟨powerOn_inv, powerOn_pulseInv, powerOn_inv .default 0 0, powerOn_pulseInv .default 0 0 rfl⟩

/-! ### An empty schedule (R201), and elapsed time (R205) -/

/-- Settles O7: the model's choice of log entry 2. -/
theorem emptyScheduleKeepsState : Obligations.EmptyScheduleKeepsState := fun _ => step_nil

/-- Settles O56: TIME writes NOW and keeps SNAP, and the sum wraps at the width of the two. -/
theorem elapsedTimeWraps : Obligations.ElapsedTimeWraps :=
  fun s _ rest hs => ⟨_, step_time hs, el_advanceNow { s with schedule := rest } _⟩

end Sys2Proof.Machine
